-- ==== Sys2Proof/Word.lean ====
section
/-! DEFINITION. The two word types of the machine: a byte is 8 bits, a word 16 (spec/00_scope.md R7, R8). -/

namespace Sys2Proof

/-- 8 bits: the data width, and the only unit of memory (R6, R60). -/
abbrev Byte := BitVec 8

/-- 16 bits: addresses, PC, SP and the register pairs (R6). -/
abbrev Word := BitVec 16

end Sys2Proof
end

