-- ==== Sys2Proof/Machine/Bits.lean ====
section
/-! DEFINITION. Bytes out of words, words out of bytes, bytes out of bits. -/

namespace Sys2Proof

/-- The high-order byte of a word, `v[15:8]`. -/
def hiByte (w : Word) : Byte := w.extractLsb' 8 8

/-- The low-order byte of a word, `v[7:0]`. -/
def loByte (w : Word) : Byte := w.extractLsb' 0 8

/-- `hi : lo`, the high part first (spec/00_scope.md R8): the first-named register of a pair is the high byte (R23),
byte 3 of an instruction is the high byte of its operand (R107). -/
def pair (hi lo : Byte) : Word := hi ++ lo

/-- A byte from its bits, bit 7 first (R7). -/
def byteOfBits (b7 b6 b5 b4 b3 b2 b1 b0 : Bool) : Byte :=
  BitVec.ofNat 8 (128 * b7.toNat + 64 * b6.toNat + 32 * b5.toNat + 16 * b4.toNat +
    8 * b3.toNat + 4 * b2.toNat + 2 * b1.toNat + b0.toNat)

end Sys2Proof
end

