-- ==== Sys2Proof/Syntax.lean ====
section
/-! DEFINITION. The instructions: one constructor per row of spec/opcode_table.json (spec/30_encoding.md R108), and the
operand names they use. -/

namespace Sys2Proof

/-- The seven 8-bit registers an SSS or DDD field names (R103); code 110, memory, has instruction rows of its own. -/
inductive Reg where
  | b | c | d | e | h | l | a
  deriving DecidableEq, Repr

/-- The 16-bit register pairs of the RP field (R104). -/
inductive RegPair where
  | bc | de | hl | sp
  deriving DecidableEq, Repr

/-- The eight conditions of the CCC field (R105, R165). -/
inductive Cond where
  | nz | z | nc | c | po | pe | p | m
  deriving DecidableEq, Repr

/-- One constructor per row of the opcode table, in the table's order, with the row's mnemonic and rule.
In `rst n` the restart number is a plain number, which `Instr.wellFormed` bounds. -/
inductive Instr where
  -- MOVE, LOAD, AND STORE (spec/40_move_load_store.md)
  | movRR (dst : Reg) (src : Reg)            -- MOV r1,r2, R130
  | movMR (src : Reg)                      -- MOV M,r, R131
  | movRM (dst : Reg)                      -- MOV r,M, R132
  | mviR (dst : Reg) (data : Byte)         -- MVI r, R133
  | mviM (data : Byte)                   -- MVI M, R134
  | lxiB (data : Word)                   -- LXI B, R135
  | lxiD (data : Word)                   -- LXI D, R135
  | lxiH (data : Word)                   -- LXI H, R135
  | staxB                                -- STAX B, R136
  | staxD                                -- STAX D, R136
  | ldaxB                                -- LDAX B, R137
  | ldaxD                                -- LDAX D, R137
  | sta (addr : Word)                    -- STA, R138
  | lda (addr : Word)                    -- LDA, R139
  | shld (addr : Word)                   -- SHLD, R140
  | lhld (addr : Word)                   -- LHLD, R141
  | xchg                                 -- XCHG, R142
  -- STACK OPS (spec/41_stack_ops.md)
  | pushB                                -- PUSH B, R151
  | pushD                                -- PUSH D, R151
  | pushH                                -- PUSH H, R151
  | pushPSW                              -- PUSH PSW, R152
  | popB                                 -- POP B, R153
  | popD                                 -- POP D, R153
  | popH                                 -- POP H, R153
  | popPSW                               -- POP PSW, R154
  | xthl                                 -- XTHL, R155
  | sphl                                 -- SPHL, R156
  | lxiSP (data : Word)                  -- LXI SP, R157
  | inxSP                                -- INX SP, R158
  | dcxSP                                -- DCX SP, R159
  -- JUMP (spec/42_jump_call_return_restart.md)
  | jmp (addr : Word)                    -- JMP, R166
  | jc (addr : Word)                     -- JC, R167
  | jnc (addr : Word)                    -- JNC, R168
  | jz (addr : Word)                     -- JZ, R169
  | jnz (addr : Word)                    -- JNZ, R170
  | jp (addr : Word)                     -- JP, R171
  | jm (addr : Word)                     -- JM, R172
  | jpe (addr : Word)                    -- JPE, R173
  | jpo (addr : Word)                    -- JPO, R174
  | pchl                                 -- PCHL, R175
  -- CALL
  | call (addr : Word)                   -- CALL, R176
  | cc (addr : Word)                     -- CC, R177
  | cnc (addr : Word)                    -- CNC, R178
  | cz (addr : Word)                     -- CZ, R179
  | cnz (addr : Word)                    -- CNZ, R180
  | cp (addr : Word)                     -- CP, R181
  | cm (addr : Word)                     -- CM, R182
  | cpe (addr : Word)                    -- CPE, R183
  | cpo (addr : Word)                    -- CPO, R184
  -- RETURN
  | ret                                  -- RET, R185
  | rc                                   -- RC, R186
  | rnc                                  -- RNC, R187
  | rz                                   -- RZ, R188
  | rnz                                  -- RNZ, R189
  | rp                                   -- RP, R190
  | rm                                   -- RM, R191
  | rpe                                  -- RPE, R192
  | rpo                                  -- RPO, R193
  -- RESTART
  | rst (n : Nat)                        -- RST, R194
  -- INPUT/OUTPUT (spec/43_input_output.md)
  | inp (port : Byte)                    -- IN, R200
  | out (port : Byte)                    -- OUT, R201
  -- INCREMENT AND DECREMENT (spec/44_increment_decrement.md)
  | inrR (dst : Reg)                       -- INR r, R205
  | dcrR (dst : Reg)                       -- DCR r, R206
  | inrM                                 -- INR M, R207
  | dcrM                                 -- DCR M, R208
  | inxB                                 -- INX B, R209
  | inxD                                 -- INX D, R209
  | inxH                                 -- INX H, R209
  | dcxB                                 -- DCX B, R210
  | dcxD                                 -- DCX D, R210
  | dcxH                                 -- DCX H, R210
  -- ADD (spec/45_add_subtract.md)
  | addR (src : Reg)                       -- ADD r, R215
  | adcR (src : Reg)                       -- ADC r, R216
  | addM                                 -- ADD M, R217
  | adcM                                 -- ADC M, R218
  | adi (data : Byte)                    -- ADI, R219
  | aci (data : Byte)                    -- ACI, R220
  | dadB                                 -- DAD B, R221
  | dadD                                 -- DAD D, R221
  | dadH                                 -- DAD H, R221
  | dadSP                                -- DAD SP, R221
  -- SUBTRACT
  | subR (src : Reg)                       -- SUB r, R222
  | sbbR (src : Reg)                       -- SBB r, R223
  | subM                                 -- SUB M, R224
  | sbbM                                 -- SBB M, R225
  | sui (data : Byte)                    -- SUI, R226
  | sbi (data : Byte)                    -- SBI, R227
  -- LOGICAL (spec/46_logical_rotate_specials.md)
  | anaR (src : Reg)                       -- ANA r, R235
  | xraR (src : Reg)                       -- XRA r, R236
  | oraR (src : Reg)                       -- ORA r, R237
  | cmpR (src : Reg)                       -- CMP r, R238
  | anaM                                 -- ANA M, R239
  | xraM                                 -- XRA M, R240
  | oraM                                 -- ORA M, R241
  | cmpM                                 -- CMP M, R242
  | ani (data : Byte)                    -- ANI, R243
  | xri (data : Byte)                    -- XRI, R244
  | ori (data : Byte)                    -- ORI, R245
  | cpi (data : Byte)                    -- CPI, R246
  -- ROTATE
  | rlc                                  -- RLC, R247
  | rrc                                  -- RRC, R248
  | ral                                  -- RAL, R249
  | rar                                  -- RAR, R250
  -- SPECIALS
  | cma                                  -- CMA, R251
  | stc                                  -- STC, R252
  | cmc                                  -- CMC, R253
  | daa                                  -- DAA, R254
  -- CONTROL (spec/47_control_rim_sim.md)
  | ei                                   -- EI, R260
  | di                                   -- DI, R261
  | nop                                  -- NOP, R262
  | hlt                                  -- HLT, R263
  -- NEW 8085A INSTRUCTIONS
  | rim                                  -- RIM, R264
  | sim                                  -- SIM, R265
  deriving DecidableEq, Repr

end Sys2Proof
end

