-- ==== Sys2Proof/WellFormed.lean ====
section
/-! DEFINITION. Which instructions exist as terms of the hardware: the operand checks the types do not make. -/

namespace Sys2Proof

/-- The one operand the types leave unbounded is the restart number, "n = 0..7" (spec/30_encoding.md R106,
spec/42_jump_call_return_restart.md R194). Registers exclude code 110 and immediates have their width by type. -/
def Instr.wellFormed : Instr → Bool
  | .rst n => decide (n < 8)
  | .movRR _ _ | .movMR _ | .movRM _ | .mviR _ _ | .mviM _ | .lxiB _ | .lxiD _ | .lxiH _ | .staxB | .staxD | .ldaxB
  | .ldaxD | .sta _ | .lda _ | .shld _ | .lhld _ | .xchg | .pushB | .pushD | .pushH | .pushPSW | .popB | .popD
  | .popH | .popPSW | .xthl | .sphl | .lxiSP _ | .inxSP | .dcxSP | .jmp _ | .jc _ | .jnc _ | .jz _ | .jnz _ | .jp _
  | .jm _ | .jpe _ | .jpo _ | .pchl | .call _ | .cc _ | .cnc _ | .cz _ | .cnz _ | .cp _ | .cm _ | .cpe _ | .cpo _
  | .ret | .rc | .rnc | .rz | .rnz | .rp | .rm | .rpe | .rpo | .inp _ | .out _ | .inrR _ | .dcrR _ | .inrM | .dcrM
  | .inxB | .inxD | .inxH | .dcxB | .dcxD | .dcxH | .addR _ | .adcR _ | .addM | .adcM | .adi _ | .aci _ | .dadB
  | .dadD | .dadH | .dadSP | .subR _ | .sbbR _ | .subM | .sbbM | .sui _ | .sbi _ | .anaR _ | .xraR _ | .oraR _
  | .cmpR _ | .anaM | .xraM | .oraM | .cmpM | .ani _ | .xri _ | .ori _ | .cpi _ | .rlc | .rrc | .ral | .rar | .cma
  | .stc | .cmc | .daa | .ei | .di | .nop | .hlt | .rim | .sim => true

/-- `Instr.wellFormed` as a proposition. -/
abbrev Instr.WellFormed (i : Instr) : Prop := i.wellFormed = true

end Sys2Proof
end

