-- ==== Sys2Proof/Decode.lean ====
section
/-! DEFINITION. Decoding (spec/30_encoding.md R100 to R113): from the first byte to the instruction's format and meaning,
from bytes to an instruction, and back (`encode`). -/

namespace Sys2Proof

/-- Register codes SSS and DDD (R103). -/
def Reg.code : Reg → Byte
  | .b => 0 | .c => 1 | .d => 2 | .e => 3 | .h => 4 | .l => 5 | .a => 7

/-- The register of a code; code 110 names memory, so no register (R103). -/
def Reg.ofCode : Nat → Option Reg
  | 0 => some .b | 1 => some .c | 2 => some .d | 3 => some .e
  | 4 => some .h | 5 => some .l | 7 => some .a | _ => none

/-- Condition codes CCC (R105). -/
def Cond.ofCode : Nat → Cond
  | 0 => .nz | 1 => .z | 2 => .nc | 3 => .c | 4 => .po | 5 => .pe | 6 => .p | _ => .m

/-- What the first byte settles (R100): the format, with the instruction its operand bytes complete, or that the
byte is one of the ten unassigned ones (R110). -/
inductive Form where
  | r (i : Instr)              -- 1 byte
  | i8 (f : Byte → Instr)      -- 2 bytes: opcode, data8 or port
  | i16 (f : Word → Instr)     -- 3 bytes: opcode, low byte, high byte
  | unused                     -- R110

/-- Group 00 (R102, R109): moves of immediates, pairs, increments, rotates, RIM, SIM. -/
def decodeGroup0 (y z : Nat) : Form :=
  match z with
  | 0 => match y with | 0 => .r .nop | 4 => .r .rim | 6 => .r .sim | _ => .unused
  | 1 => match y with
    | 0 => .i16 .lxiB | 1 => .r .dadB | 2 => .i16 .lxiD | 3 => .r .dadD
    | 4 => .i16 .lxiH | 5 => .r .dadH | 6 => .i16 .lxiSP | _ => .r .dadSP
  | 2 => match y with
    | 0 => .r .staxB | 1 => .r .ldaxB | 2 => .r .staxD | 3 => .r .ldaxD
    | 4 => .i16 .shld | 5 => .i16 .lhld | 6 => .i16 .sta | _ => .i16 .lda
  | 3 => match y with
    | 0 => .r .inxB | 1 => .r .dcxB | 2 => .r .inxD | 3 => .r .dcxD
    | 4 => .r .inxH | 5 => .r .dcxH | 6 => .r .inxSP | _ => .r .dcxSP
  | 4 => match Reg.ofCode y with | some dst => .r (.inrR dst) | none => .r .inrM
  | 5 => match Reg.ofCode y with | some dst => .r (.dcrR dst) | none => .r .dcrM
  | 6 => match Reg.ofCode y with | some dst => .i8 (.mviR dst) | none => .i8 .mviM
  | _ => match y with
    | 0 => .r .rlc | 1 => .r .rrc | 2 => .r .ral | 3 => .r .rar
    | 4 => .r .daa | 5 => .r .cma | 6 => .r .stc | _ => .r .cmc

/-- Group 01: the moves between registers and memory; both fields 110 is HLT (R103, R112). -/
def decodeGroup1 (y z : Nat) : Form :=
  match Reg.ofCode y with
  | some dst => match Reg.ofCode z with | some src => .r (.movRR dst src) | none => .r (.movRM dst)
  | none => match Reg.ofCode z with | some src => .r (.movMR src) | none => .r .hlt

/-- Group 10: accumulator arithmetic and logic with a register or memory (R102). -/
def decodeGroup2 (y z : Nat) : Form :=
  match Reg.ofCode z with
  | some src => match y with
    | 0 => .r (.addR src) | 1 => .r (.adcR src) | 2 => .r (.subR src) | 3 => .r (.sbbR src)
    | 4 => .r (.anaR src) | 5 => .r (.xraR src) | 6 => .r (.oraR src) | _ => .r (.cmpR src)
  | none => match y with
    | 0 => .r .addM | 1 => .r .adcM | 2 => .r .subM | 3 => .r .sbbM
    | 4 => .r .anaM | 5 => .r .xraM | 6 => .r .oraM | _ => .r .cmpM

/-- Group 11: branches, stack, input and output, immediate arithmetic, restarts. -/
def decodeGroup3 (y z : Nat) : Form :=
  match z with
  | 0 => match y with
    | 0 => .r .rnz | 1 => .r .rz | 2 => .r .rnc | 3 => .r .rc
    | 4 => .r .rpo | 5 => .r .rpe | 6 => .r .rp | _ => .r .rm
  | 1 => match y with
    | 0 => .r .popB | 1 => .r .ret | 2 => .r .popD | 3 => .unused
    | 4 => .r .popH | 5 => .r .pchl | 6 => .r .popPSW | _ => .r .sphl
  | 2 => match y with
    | 0 => .i16 .jnz | 1 => .i16 .jz | 2 => .i16 .jnc | 3 => .i16 .jc
    | 4 => .i16 .jpo | 5 => .i16 .jpe | 6 => .i16 .jp | _ => .i16 .jm
  | 3 => match y with
    | 0 => .i16 .jmp | 1 => .unused | 2 => .i8 .out | 3 => .i8 .inp
    | 4 => .r .xthl | 5 => .r .xchg | 6 => .r .di | _ => .r .ei
  | 4 => match y with
    | 0 => .i16 .cnz | 1 => .i16 .cz | 2 => .i16 .cnc | 3 => .i16 .cc
    | 4 => .i16 .cpo | 5 => .i16 .cpe | 6 => .i16 .cp | _ => .i16 .cm
  | 5 => match y with
    | 0 => .r .pushB | 1 => .i16 .call | 2 => .r .pushD | 4 => .r .pushH | 6 => .r .pushPSW | _ => .unused
  | 6 => match y with
    | 0 => .i8 .adi | 1 => .i8 .aci | 2 => .i8 .sui | 3 => .i8 .sbi
    | 4 => .i8 .ani | 5 => .i8 .xri | 6 => .i8 .ori | _ => .i8 .cpi
  | _ => .r (.rst y)

/-- The group, bits 7:6 (R102). -/
def opGroup (op : Byte) : Nat := op.toNat / 64

/-- Bits 5:3: DDD, CCC, AAA, the ALU operation, or RP and one bit (R102). -/
def opMid (op : Byte) : Nat := op.toNat / 8 % 8

/-- Bits 2:0: SSS or the column (R102). -/
def opLow (op : Byte) : Nat := op.toNat % 8

/-- The opcode map by first byte (R109). -/
def decodeOp (op : Byte) : Form :=
  match opGroup op with
  | 0 => decodeGroup0 (opMid op) (opLow op)
  | 1 => decodeGroup1 (opMid op) (opLow op)
  | 2 => decodeGroup2 (opMid op) (opLow op)
  | _ => decodeGroup3 (opMid op) (opLow op)

/-- What decoding answers: an instruction and the bytes after it, or by name why there is none. -/
inductive Decoded where
  | ok (i : Instr) (rest : List Byte)
  | unusedOpcode (op : Byte)           -- R110
  | truncated                          -- fewer bytes than the first byte calls for
  deriving DecidableEq, Repr

/-- Decode the instruction at the head of a byte sequence (R100, R101): total, low byte before high (R107). -/
def decode : List Byte → Decoded
  | [] => .truncated
  | op :: bs =>
    match decodeOp op with
    | .unused => .unusedOpcode op
    | .r i => .ok i bs
    | .i8 f => match bs with
      | b2 :: rest => .ok (f b2) rest
      | [] => .truncated
    | .i16 f => match bs with
      | b2 :: b3 :: rest => .ok (f (pair b3 b2)) rest
      | _ => .truncated

/-- A three-byte instruction: opcode, low byte, high byte (R100, R107). -/
def encode16 (op : Byte) (w : Word) : List Byte := [op, loByte w, hiByte w]

/-- An opcode with DDD in bits 5:3 and SSS in bits 2:0 (R102). -/
def withFields (base ddd sss : Byte) : Byte := base ||| ddd <<< 3 ||| sss

/-- The bytes of a well-formed instruction, from the rows of R108. -/
def encode : Instr → List Byte
  | .movRR dst src => [withFields 0x40 dst.code src.code]
  | .movMR src => [withFields 0x70 0 src.code]
  | .movRM dst => [withFields 0x46 dst.code 0]
  | .mviR dst data => [withFields 0x06 dst.code 0, data]
  | .mviM data => [0x36, data]
  | .lxiB data => encode16 0x01 data
  | .lxiD data => encode16 0x11 data
  | .lxiH data => encode16 0x21 data
  | .staxB => [0x02]
  | .staxD => [0x12]
  | .ldaxB => [0x0A]
  | .ldaxD => [0x1A]
  | .sta addr => encode16 0x32 addr
  | .lda addr => encode16 0x3A addr
  | .shld addr => encode16 0x22 addr
  | .lhld addr => encode16 0x2A addr
  | .xchg => [0xEB]
  | .pushB => [0xC5]
  | .pushD => [0xD5]
  | .pushH => [0xE5]
  | .pushPSW => [0xF5]
  | .popB => [0xC1]
  | .popD => [0xD1]
  | .popH => [0xE1]
  | .popPSW => [0xF1]
  | .xthl => [0xE3]
  | .sphl => [0xF9]
  | .lxiSP data => encode16 0x31 data
  | .inxSP => [0x33]
  | .dcxSP => [0x3B]
  | .jmp addr => encode16 0xC3 addr
  | .jc addr => encode16 0xDA addr
  | .jnc addr => encode16 0xD2 addr
  | .jz addr => encode16 0xCA addr
  | .jnz addr => encode16 0xC2 addr
  | .jp addr => encode16 0xF2 addr
  | .jm addr => encode16 0xFA addr
  | .jpe addr => encode16 0xEA addr
  | .jpo addr => encode16 0xE2 addr
  | .pchl => [0xE9]
  | .call addr => encode16 0xCD addr
  | .cc addr => encode16 0xDC addr
  | .cnc addr => encode16 0xD4 addr
  | .cz addr => encode16 0xCC addr
  | .cnz addr => encode16 0xC4 addr
  | .cp addr => encode16 0xF4 addr
  | .cm addr => encode16 0xFC addr
  | .cpe addr => encode16 0xEC addr
  | .cpo addr => encode16 0xE4 addr
  | .ret => [0xC9]
  | .rc => [0xD8]
  | .rnc => [0xD0]
  | .rz => [0xC8]
  | .rnz => [0xC0]
  | .rp => [0xF0]
  | .rm => [0xF8]
  | .rpe => [0xE8]
  | .rpo => [0xE0]
  | .rst n => [withFields 0xC7 (BitVec.ofNat 8 n) 0]
  | .inp port => [0xDB, port]
  | .out port => [0xD3, port]
  | .inrR dst => [withFields 0x04 dst.code 0]
  | .dcrR dst => [withFields 0x05 dst.code 0]
  | .inrM => [0x34]
  | .dcrM => [0x35]
  | .inxB => [0x03]
  | .inxD => [0x13]
  | .inxH => [0x23]
  | .dcxB => [0x0B]
  | .dcxD => [0x1B]
  | .dcxH => [0x2B]
  | .addR src => [withFields 0x80 0 src.code]
  | .adcR src => [withFields 0x88 0 src.code]
  | .addM => [0x86]
  | .adcM => [0x8E]
  | .adi data => [0xC6, data]
  | .aci data => [0xCE, data]
  | .dadB => [0x09]
  | .dadD => [0x19]
  | .dadH => [0x29]
  | .dadSP => [0x39]
  | .subR src => [withFields 0x90 0 src.code]
  | .sbbR src => [withFields 0x98 0 src.code]
  | .subM => [0x96]
  | .sbbM => [0x9E]
  | .sui data => [0xD6, data]
  | .sbi data => [0xDE, data]
  | .anaR src => [withFields 0xA0 0 src.code]
  | .xraR src => [withFields 0xA8 0 src.code]
  | .oraR src => [withFields 0xB0 0 src.code]
  | .cmpR src => [withFields 0xB8 0 src.code]
  | .anaM => [0xA6]
  | .xraM => [0xAE]
  | .oraM => [0xB6]
  | .cmpM => [0xBE]
  | .ani data => [0xE6, data]
  | .xri data => [0xEE, data]
  | .ori data => [0xF6, data]
  | .cpi data => [0xFE, data]
  | .rlc => [0x07]
  | .rrc => [0x0F]
  | .ral => [0x17]
  | .rar => [0x1F]
  | .cma => [0x2F]
  | .stc => [0x37]
  | .cmc => [0x3F]
  | .daa => [0x27]
  | .ei => [0xFB]
  | .di => [0xF3]
  | .nop => [0x00]
  | .hlt => [0x76]
  | .rim => [0x20]
  | .sim => [0x30]

/-- The instruction's length in bytes (R100). -/
def Instr.length (i : Instr) : Nat := (encode i).length

/-- How a decoder tells the length from byte 1 (R113); the ten unused bytes have none (R110). -/
def opLength (op : Byte) : Option Nat :=
  match decodeOp op with
  | .r _ => some 1
  | .i8 _ => some 2
  | .i16 _ => some 3
  | .unused => none

/-- The instruction the decoder reads from bits numbered as spec/opcode_table.json numbers them: the first byte is
bits 7..0, the second bits 15..8, the third bits 23..16, and every bit from `nbits` up is 0. -/
def decodeTableWord (nbits w : Nat) : Option Instr :=
  let v := w % 2 ^ nbits
  match decode [BitVec.ofNat 8 v, BitVec.ofNat 8 (v / 256), BitVec.ofNat 8 (v / 65536)] with
  | .ok i _ => some i
  | _ => none

end Sys2Proof
end

