-- ==== Sys2Proof/Config.lean ====
section
/-! DEFINITION. What the spec leaves open: the free values, and the values of the parameter ANA_AC_MODE
(spec/92_eei_decisions.md, "Named parameters"). -/

namespace Sys2Proof

/-- `draw_N()` of spec/00_scope.md R8: the n-th free byte. It has no body, so nothing can be proved of its value.
It stands for bits 5, 3, 1 of the pushed flag byte (R29, D11), the registers and flags after RESET IN (R46, D14), and what a
device, a port or an undriven location answers when the environment's answers are used up (R61, R62, R68, U15).
DESIGN CHOICE (log entry 4), safe. -/
opaque Config.freeByte : Nat → Byte

/-- The two values of the parameter ANA_AC_MODE (decision D15; spec/46_logical_rotate_specials.md R235). The parameter itself
is the field `anaAc` of the machine's state, which nothing writes (log entry 8). -/
inductive AnaAcMode where
  | one      -- AC <- 1, the 8085A's behaviour and the spec's rule
  | orBit3   -- AC <- A[3] | operand[3], the 8080A's
  deriving DecidableEq, Repr

end Sys2Proof
end

