-- ==== Sys2Proof/Machine/State.lean ====
section
/-! DEFINITION. The machine's state as plain data, its reset value, and the reasons a step can stop.
The chip's own state is the list of spec/10_state.md R20; what the environment does is data the step reads (log entry 3). -/

namespace Sys2Proof.Machine

/-- The five flags (R28). -/
structure Flags where
  s  : Bool   -- sign
  z  : Bool   -- zero
  ac : Bool   -- auxiliary carry
  p  : Bool   -- parity, 1 = even
  cy : Bool   -- carry, borrow
  deriving DecidableEq, Repr

/-- The levels of the input pins as the environment last drove them (R43). READY is not a level here: a transfer's wait
states are `Xfer.waits`. `resetIn` is true while RESET IN is asserted (the pin is active low). -/
structure Pins where
  trap    : Bool
  rst75   : Bool
  rst65   : Bool
  rst55   : Bool
  intr    : Bool
  sid     : Bool
  hold    : Bool
  resetIn : Bool
  deriving DecidableEq, Repr

/-- The input pins that may change between any two bus transfers (R43). -/
inductive Pin where
  | trap | rst75 | rst65 | rst55 | intr | sid | hold
  deriving DecidableEq, Repr

/-- Something the environment does between two bus transfers (R10, R71). -/
inductive Event where
  | pin (p : Pin) (level : Bool)        -- a pin takes a level
  | dma (addr : Word) (v : Byte)        -- the other bus master writes a byte; it can only while HLDA is 1 or RESET IN is applied
  deriving DecidableEq, Repr

/-- Something the environment does between two steps: an event, or RESET IN asserted or released (R320). -/
inductive BoundaryEvent where
  | bus (e : Event)
  | resetIn (asserted : Bool)
  deriving DecidableEq, Repr

/-- What the environment does around one bus transfer: events before it (a hold grant among them, R71, R72), and how many
TWAIT states READY inserts into it (R73). -/
structure Xfer where
  events : List Event
  waits  : Nat
  deriving DecidableEq, Repr

/-- The environment's part of the state: what is to come, and the free values. All lists are read from the head. -/
structure Env where
  inputs  : List (List BoundaryEvent)   -- before each of the next steps; nothing when the list is used up
  xfers   : List Xfer                   -- around each of the next bus transfers; nothing when used up
  ioIn    : List Byte                   -- answers to I/O reads (R61)
  intaIn  : List Byte                   -- answers to INTA cycles (R62)
  memIn   : List Byte                   -- answers to reads of device memory (R68)
  choices : List Byte                   -- the next free values
  draws   : Nat                         -- how many free values came from `Config.freeByte`
  deriving DecidableEq, Repr

/-- The machine cycle types of Table 2 (R64), bus idle by its three occasions. -/
inductive CycleKind where
  | opFetch | memRead | memWrite | ioRead | ioWrite | intAck | idleDad | idleAck | idleHalt
  deriving DecidableEq, Repr

/-- One machine cycle as an observer of the bus records it (R63, R64): type, the 16-bit address and the byte where the
cycle has them, the T states it has without waiting, and its wait states. -/
structure BusCycle where
  kind  : CycleKind
  addr  : Option Word
  data  : Option Byte
  base  : Nat
  waits : Nat
  deriving DecidableEq, Repr

/-- What stands at a memory location (R68): RAM; ROM, which ignores writes; or a device or nothing, whose reads the
environment answers and which keeps no byte for the CPU. -/
inductive MemKind where
  | ram | rom | device
  deriving DecidableEq, Repr

/-- A region of the platform's memory map: `size` addresses from `base` on. -/
structure Region where
  base : Nat
  size : Nat
  kind : MemKind
  deriving DecidableEq, Repr

/-- Memory contents: (address, byte), addresses strictly rising, no byte equal to what an unlisted address reads as. -/
abbrev Mem := List Host.Cell

/-- The machine. -/
structure State where
  /-- The accumulator (R21). -/
  a : Byte
  /-- The general registers (R22). -/
  b : Byte
  c : Byte
  d : Byte
  e : Byte
  h : Byte
  l : Byte
  /-- The flags (R28). -/
  flags : Flags
  /-- Stack pointer (R25). -/
  sp : Word
  /-- Program counter (R26). -/
  pc : Word
  /-- Interrupt enable (R32). -/
  ie : Bool
  /-- The masks of RST 5.5, 6.5, 7.5; true = disabled (R33). -/
  m55 : Bool
  m65 : Bool
  m75 : Bool
  /-- The RST 7.5 request flip-flop (R34). -/
  r75 : Bool
  /-- The TRAP request flip-flop (R35). -/
  trapFF : Bool
  /-- The interrupt enable saved by TRAP, and whether the next RIM reports it (R36). -/
  trapIE : Bool
  trapRIM : Bool
  /-- The one-boundary interrupt inhibit after EI and DI (R40). -/
  inhibit : Bool
  /-- The opcode fetch at 0000H that the release of RESET IN begins is still to come: the first instruction runs before any
  request is evaluated (R322). -/
  starting : Bool
  /-- Serial output latch (R37). -/
  sod : Bool
  /-- Hold acknowledge (R38). -/
  hlda : Bool
  /-- The halt state (R39). -/
  halted : Bool
  /-- Memory contents (R60). -/
  mem : Mem
  /-- The platform's memory map; RAM where no region matches (R68, D6). -/
  map : List Region
  /-- The parameter ANA_AC_MODE of the part (D15); nothing writes it. -/
  anaAc : AnaAcMode
  /-- Input pin levels (R43). -/
  pins : Pins
  /-- The environment to come (R10). -/
  env : Env
  /-- The machine cycles of the step in progress or just finished, oldest first (R64). -/
  bus : List BusCycle
  deriving DecidableEq, Repr

/-- Reasons to stop with a fault: none. "It has no fault outcome: no instruction traps, no access faults"
(spec/00_scope.md R12, spec/60_exceptions.md R270). -/
inductive Fault where
  deriving DecidableEq, Repr

/-- What the model gives no meaning. -/
inductive Refusal where
  /-- An instruction without a meaning in this model, raised by an arm of `exec` only; safe. -/
  | notModelled (mnemonic : String)
  /-- An opcode fetch returned one of the ten unassigned bytes (R110, D8); raised by `step`; safe. -/
  | unusedOpcode (op : Byte)
  /-- An INTA cycle was answered with neither RST n nor CALL (R284, D18); raised by `step`; safe. -/
  | intaOpcode (op : Byte)
  deriving DecidableEq, Repr

/-- What a step or an instruction answers. -/
abbrev Result := Host.Outcome State Fault Refusal

/-- Right after reset, RESET IN just released (R46, R321). The zeros of A to L, SP and the flags, and of TRAP_IE, are
DESIGN CHOICES the spec does not make (log entry 1, unsafe), the empty memory map too (log entry 2); the pins are
inactive and nothing is to come (log entry 3); ANA_AC_MODE has the spec's default `one` (D15, log entry 8). -/
def State.reset : State where
  a := 0
  b := 0
  c := 0
  d := 0
  e := 0
  h := 0
  l := 0
  flags := ⟨false, false, false, false, false⟩
  sp := 0
  pc := 0
  ie := false
  m55 := true
  m65 := true
  m75 := true
  r75 := false
  trapFF := false
  trapIE := false
  trapRIM := false
  inhibit := false
  starting := true
  sod := false
  hlda := false
  halted := false
  mem := []
  map := []
  anaAc := .one
  pins := ⟨false, false, false, false, false, false, false, false⟩
  env := ⟨[], [], [], [], [], [], 0⟩
  bus := []

end Sys2Proof.Machine
end

