-- ==== Sys2Proof/Machine/Bus.lean ====
section
/-! DEFINITION. What an observer of the bus sees: the control lines of each machine cycle type (Table 2, R45, R64), the
T states of a cycle and the lines in each, the multiplexed address and data bus among them (Table 3, R44, R63, R65), and the
T states of instructions by their first byte (R330, R331).
Nothing here feeds back into what the CPU computes. -/

namespace Sys2Proof.Machine

/-- The level of an output line: 0, 1, high impedance (TS), or a value the spec does not give (X). -/
inductive Level where
  | low | high | floating | unspecified
  deriving DecidableEq, Repr

/-- The three status lines and the three control signals (R64); `rd`, `wr` and `inta` are active low. -/
structure ControlLines where
  ioM  : Level
  s1   : Level
  s0   : Level
  rd   : Level
  wr   : Level
  inta : Level
  deriving DecidableEq, Repr

/-- Table 2, the machine cycle chart (R64). -/
def CycleKind.lines : CycleKind → ControlLines
  | .opFetch  => ⟨.low,  .high, .high, .low,  .high, .high⟩
  | .memRead  => ⟨.low,  .high, .low,  .low,  .high, .high⟩
  | .memWrite => ⟨.low,  .low,  .high, .high, .low,  .high⟩
  | .ioRead   => ⟨.high, .high, .low,  .low,  .high, .high⟩
  | .ioWrite  => ⟨.high, .low,  .high, .high, .low,  .high⟩
  | .intAck   => ⟨.high, .high, .high, .high, .high, .low⟩
  | .idleDad  => ⟨.low,  .high, .low,  .high, .high, .high⟩
  | .idleAck  => ⟨.high, .high, .high, .high, .high, .high⟩
  | .idleHalt => ⟨.floating, .low, .low, .floating, .floating, .high⟩

/-- The machine cycle status lines IO/M, S1, S0 (R45). -/
structure StatusLines where
  ioM : Level
  s1  : Level
  s0  : Level
  deriving DecidableEq, Repr

/-- The status of a machine cycle, the table of R45 and the first three columns of Table 2, with which "it agrees". -/
def CycleKind.status (k : CycleKind) : StatusLines := ⟨k.lines.ioM, k.lines.s1, k.lines.s0⟩

/-- Whether a byte crosses the bus in the cycle (R63: one byte, "or none, for bus idle"). -/
def CycleKind.transfers : CycleKind → Bool
  | .opFetch | .memRead | .memWrite | .ioRead | .ioWrite | .intAck => true
  | .idleDad | .idleAck | .idleHalt => false

/-- The ten T states of Table 3 (R65). -/
inductive TState where
  | t1 | t2 | tWait | t3 | t4 | t5 | t6 | tReset | tHalt | tHold
  deriving DecidableEq, Repr

/-- The status lines in each T state by R45: in a machine cycle the cycle's status, which becomes "valid at the beginning of a machine
cycle" and remains "stable throughout the cycle", so the same in all of T1 to T6; and the rows Halt, Hold and Reset. Table 3
(`TState.lines`) differs from it in one place (log entry 13). -/
def TState.status (c : BusCycle) : TState → StatusLines
  | .t1 | .t2 | .tWait | .t3 | .t4 | .t5 | .t6 => c.kind.status
  | .tHalt => ⟨.floating, .low, .low⟩
  | .tHold | .tReset => ⟨.floating, .unspecified, .unspecified⟩

/-- What is on eight of the bus lines: a byte of the address, the data byte that crosses the bus in the cycle, high impedance
(TS), or a value the spec does not give. -/
inductive BusByte where
  | address (v : Byte)
  | data (v : Byte)
  | floating
  | unspecified
  deriving DecidableEq, Repr

/-- The lines of Table 3 (R65): status, A8 to A15, AD0 to AD7, the control signals (active low), ALE. -/
structure BusLines where
  ioM  : Level
  s1   : Level
  s0   : Level
  aHi  : BusByte
  ad   : BusByte
  rd   : Level
  wr   : Level
  inta : Level
  ale  : Level
  deriving DecidableEq, Repr

/-- A8 to A15 while a cycle drives them: "The most significant 8 bits of the memory address or the 8 bits of the I/O address" (R44);
a bus idle cycle of the processor has no address. -/
def BusCycle.highAddress (c : BusCycle) : BusByte :=
  match c.addr with
  | some x => .address (hiByte x)
  | none => .unspecified

/-- AD0 to AD7 in T1, "Lower 8 bits of the memory address (or I/O address)" (R44, R63). -/
def BusCycle.lowAddress (c : BusCycle) : BusByte :=
  match c.addr with
  | some x => .address (loByte x)
  | none => .unspecified

/-- AD0 to AD7 in the rest of the cycle, when they are "used for memory or I/O data" (R44, R63): the one byte that crosses the bus,
from whichever side. When within T2 to T3 a byte read is there is analogue timing (R335; that it is shown in all of them is a
DESIGN CHOICE, log entry 6). -/
def BusCycle.dataByte (c : BusCycle) : BusByte :=
  match c.data with
  | some v => .data v
  | none => .unspecified

/-- Table 3, the machine state chart (R65), in a machine cycle. Its X, "depends on the cycle type", is the cycle's value: the status
and control lines of Table 2 (`CycleKind.lines`) and the cycle's address and byte. ALE is 1 in T1, but not in the idle cycles of
DAD (note *), and IO/M in T4 to T6 is 1 in an INA cycle alone (note †, R331). In the acknowledge of TRAP and RST x.5
R45 has IO/M keep its 1 there: `TState.status` is R45's table, and this chart keeps Table 3's 0 (DESIGN CHOICE, log entry 13,
unsafe). The byte read is shown in the whole of T2 to T3: DESIGN CHOICE (log entry 6, unsafe). A8 to A15 in T4 to T6, and S1 and
S0 in hold and in reset, have no value (R329). The idle states are the same in every cycle. -/
def TState.lines (c : BusCycle) : TState → BusLines
  | .t1 =>
    ⟨c.kind.lines.ioM, c.kind.lines.s1, c.kind.lines.s0, c.highAddress, c.lowAddress, .high, .high, .high,
      if c.kind = .idleDad then .low else .high⟩
  | .t2 | .tWait | .t3 =>
    ⟨c.kind.lines.ioM, c.kind.lines.s1, c.kind.lines.s0, c.highAddress, c.dataByte, c.kind.lines.rd, c.kind.lines.wr,
      c.kind.lines.inta, .low⟩
  | .t4 | .t5 | .t6 =>
    ⟨if c.kind = .intAck then .high else .low, .high, .high, .unspecified, .floating, .high, .high, .high, .low⟩
  | .tHalt => ⟨.floating, .low, .low, .floating, .floating, .floating, .floating, .high, .low⟩
  | .tReset | .tHold => ⟨.floating, .unspecified, .unspecified, .floating, .floating, .floating, .floating, .high, .low⟩

/-- The T states of one machine cycle in order: TWAIT states stand between T2 and T3 (R65, R73). The one T state HLT has
after its opcode fetch, "before T_HALT" (R263), is taken for a T1 (PRESUMED, log entry 5). -/
def BusCycle.tStates (c : BusCycle) : List TState :=
  match c.kind with
  | .idleHalt => List.replicate c.base .t1
  | _ => [.t1, .t2] ++ List.replicate c.waits .tWait ++ [.t3] ++ ([.t4, .t5, .t6] : List TState).take (c.base - 3)

/-- The lines an observer sees in a machine cycle, T state by T state. -/
def BusCycle.waveform (c : BusCycle) : List BusLines := c.tStates.map (TState.lines c)

/-- How many T states a machine cycle takes (R330: "Each wait state adds 1 T"). -/
def BusCycle.time (c : BusCycle) : Nat := c.base + c.waits

/-- How many T states a sequence of machine cycles takes. -/
def busTime : List BusCycle → Nat
  | [] => 0
  | c :: cs => c.time + busTime cs

/-- The bytes a sequence of machine cycles sends to the I/O devices, as (port, byte), in order (R61, R201). -/
def ioWrites : List BusCycle → List (Byte × Byte)
  | [] => []
  | c :: cs =>
    match c.kind, c.addr, c.data with
    | .ioWrite, some addr, some v => (addr.setWidth 8, v) :: ioWrites cs
    | _, _, _ => ioWrites cs

/-- T states of the opcode fetch by first byte: six for PUSH, SPHL, PCHL, INX, DCX, CALL, Ccc, Rcc, RST, else four (R331). -/
def fetchTStates (op : Byte) : Nat :=
  let group := op.toNat / 64
  let mid := op.toNat / 8 % 8
  let low := op.toNat % 8
  if group = 0 ∧ low = 3 then 6                                   -- INX, DCX
  else if group = 3 ∧ (low = 0 ∨ low = 4 ∨ low = 7) then 6        -- Rcc, Ccc, RST
  else if group = 3 ∧ low = 5 then 6                              -- PUSH, CALL
  else if group = 3 ∧ low = 1 ∧ (mid = 5 ∨ mid = 7) then 6        -- PCHL, SPHL
  else 4

/-- The idle T state the machine is held in, if it is (R298): reset before hold before halt. -/
def State.heldIn (s : State) : Option TState :=
  if s.pins.resetIn then some .tReset
  else if s.hlda then some .tHold
  else if s.halted then some .tHalt
  else none

/-- The output pin RESET OUT, "Indicates cpu is being reset" (R44, R320). SOD and HLDA are the fields `sod` and `hlda`. DESIGN CHOICE
(log entry 12, unsafe): it falls with RESET IN; whether it stays high for some clock periods after the release is not stated
(spec/91_not_in_source.md N12). -/
def State.resetOut (s : State) : Bool := s.pins.resetIn

end Sys2Proof.Machine
end

