-- ==== Sys2Proof/Machine/Flags.lean ====
section
/-! DEFINITION. Flag computations: the arithmetic helpers of spec/00_scope.md R9, the flag byte of spec/10_state.md R29, and
the flags of the logical instructions (R31, R235 to R237). -/

namespace Sys2Proof.Machine

/-- How many bits of a byte are 1. -/
def countOnes (v : Byte) : Nat :=
  (v.getLsbD 0).toNat + (v.getLsbD 1).toNat + (v.getLsbD 2).toNat + (v.getLsbD 3).toNat +
    (v.getLsbD 4).toNat + (v.getLsbD 5).toNat + (v.getLsbD 6).toNat + (v.getLsbD 7).toNat

/-- `parity8` (R9): 1 if the byte has an even number of 1 bits. -/
def parity8 (v : Byte) : Bool := countOnes v % 2 == 0

/-- What `add8` and `sub8` return (R9). -/
structure AluOut where
  res : Byte
  cy  : Bool
  ac  : Bool
  deriving DecidableEq, Repr

/-- `add8` (R9): a 9-bit sum for the result and CY, a 5-bit sum of the low halves for AC. -/
def add8 (x y : Byte) (cin : Bool) : AluOut :=
  let s9 : BitVec 9 := x.setWidth 9 + y.setWidth 9 + (BitVec.ofBool cin).setWidth 9
  let s5 : BitVec 5 := (x.extractLsb' 0 4).setWidth 5 + (y.extractLsb' 0 4).setWidth 5 + (BitVec.ofBool cin).setWidth 5
  ⟨s9.setWidth 8, s9.getLsbD 8, s5.getLsbD 4⟩

/-- `sub8` (R9): `x - y - bin` as the addition `x + ~y + (1 - bin)`; CY is the borrow, AC is not inverted. -/
def sub8 (x y : Byte) (bin : Bool) : AluOut :=
  let r := add8 x (~~~y) (!bin)
  ⟨r.res, !r.cy, r.ac⟩

/-- `SetSZP` (R9): S, Z and P from a byte, AC and CY as they were. -/
def Flags.setSZP (f : Flags) (v : Byte) : Flags := { f with s := v.getLsbD 7, z := v == 0, p := parity8 v }

/-- All five flags from a sum or difference: the ADD and SUBTRACT groups and the compares (R31). -/
def Flags.ofAlu (f : Flags) (r : AluOut) : Flags := { f.setSZP r.res with ac := r.ac, cy := r.cy }

/-- S, Z, AC, P from a sum or difference, CY as it was: INR and DCR (R31, R205, R206). -/
def Flags.ofStep (f : Flags) (r : AluOut) : Flags := { f.setSZP r.res with ac := r.ac }

/-- S, Z, P from a result, AC as given, CY 0: the logical instructions (R31). -/
def Flags.ofLogic (f : Flags) (v : Byte) (ac : Bool) : Flags := { f.setSZP v with ac := ac, cy := false }

/-- AC after AND under a value of the parameter ANA_AC_MODE (R235, D15). -/
def andAc (mode : AnaAcMode) (x y : Byte) : Bool :=
  match mode with
  | .one => true
  | .orBit3 => x.getLsbD 3 || y.getLsbD 3

/-- The flag byte `S Z x AC x P x CY` (R29), its x bits taken from bits 5, 3, 1 of `x`. -/
def Flags.toByte (f : Flags) (x : Byte) : Byte :=
  byteOfBits f.s f.z (x.getLsbD 5) f.ac (x.getLsbD 3) f.p (x.getLsbD 1) f.cy

/-- The flags of a flag byte; its bits 5, 3, 1 are discarded (R29, R154). -/
def Flags.ofByte (v : Byte) : Flags := ⟨v.getLsbD 7, v.getLsbD 6, v.getLsbD 4, v.getLsbD 2, v.getLsbD 0⟩

/-- Condition evaluation (R165). -/
def condHolds (f : Flags) : Cond → Bool
  | .nz => !f.z
  | .z => f.z
  | .nc => !f.cy
  | .c => f.cy
  | .po => !f.p
  | .pe => f.p
  | .p => !f.s
  | .m => f.s

/-- The decimal adjustment of DAA (R254): result, CY, AC. Both tests use the value before any correction. -/
def daa8 (x : Byte) (ac cy : Bool) : AluOut :=
  let lsn := x.toNat % 16
  let msn := x.toNat / 16
  let low : Bool := decide (lsn > 9) || ac
  let high : Bool := decide (msn > 9) || cy || (decide (msn ≥ 9) && decide (lsn > 9))
  let corr : Byte := (if low then 0x06 else 0) ||| (if high then 0x60 else 0)
  let r := add8 x corr false
  ⟨r.res, cy || high, r.ac⟩

end Sys2Proof.Machine
end

