-- ==== Sys2Proof/Machine/Memory.lean ====
section
/-! DEFINITION. Memory contents in canonical form, and the platform's memory map (spec/20_memory.md R60, R68). -/

namespace Sys2Proof.Machine

/-- What an address that nothing has written reads as: 00H. DESIGN CHOICE (log entry 2), unsafe. -/
def Mem.unlisted : Byte := 0

/-- The byte at an address. -/
def Mem.get : Mem → Nat → Byte
  | [], _ => Mem.unlisted
  | (k, v) :: rest, addr => if k = addr then v else Mem.get rest addr

/-- Take an address out of the list, so that it reads as unlisted. -/
def Mem.erase : Mem → Nat → Mem
  | [], _ => []
  | (k, v) :: rest, addr => if k = addr then Mem.erase rest addr else (k, v) :: Mem.erase rest addr

/-- Put a byte into a list that does not have its address, before the first higher address. -/
def Mem.insert : Mem → Nat → Byte → Mem
  | [], addr, v => [(addr, v)]
  | (k, w) :: rest, addr, v => if addr < k then (addr, v) :: (k, w) :: rest else (k, w) :: Mem.insert rest addr v

/-- Make an address read as `v`, in canonical form: a byte equal to `Mem.unlisted` is not listed. -/
def Mem.set (m : Mem) (addr : Nat) (v : Byte) : Mem :=
  if v = Mem.unlisted then Mem.erase m addr else Mem.insert (Mem.erase m addr) addr v

/-- Every listed address is above `lo`, below 65536 and below the one after it, and no listed byte is `Mem.unlisted`;
`lo` is one more than the address before. -/
def Mem.wfFrom : Nat → Mem → Bool
  | _, [] => true
  | lo, (k, v) :: rest =>
    decide (lo ≤ k) && decide (k < 65536) && decide (v ≠ Mem.unlisted) && Mem.wfFrom (k + 1) rest

/-- The canonical form. -/
def Mem.wf (m : Mem) : Bool := Mem.wfFrom 0 m

/-- Whether a region of the map holds an address. -/
def Region.holds (r : Region) (addr : Nat) : Bool := decide (r.base ≤ addr) && decide (addr < r.base + r.size)

/-- What stands at an address: the first region of the map that holds it, RAM where none does (R68, D6). -/
def kindAt : List Region → Nat → MemKind
  | [], _ => .ram
  | r :: rest, addr => if r.holds addr then r.kind else kindAt rest addr

end Sys2Proof.Machine
end

