-- ==== Sys2Proof/Machine/Ops.lean ====
section
/-! DEFINITION. The named operations over registers, memory, the bus, the stack and the environment: every meaning is written
with these. Interrupt acceptance (`acceptRestart`, `acceptIntr`, `accept`) and the return (`returnFrom`) are at the end. -/

namespace Sys2Proof.Machine

/-! ### Registers (spec/10_state.md R21 to R26) -/

/-- `r[i]` (R8). -/
def State.reg (s : State) : Reg → Byte
  | .b => s.b | .c => s.c | .d => s.d | .e => s.e | .h => s.h | .l => s.l | .a => s.a

/-- `r[i] <- v` (R8). -/
def State.setReg (s : State) (r : Reg) (v : Byte) : State :=
  match r with
  | .b => { s with b := v }
  | .c => { s with c := v }
  | .d => { s with d := v }
  | .e => { s with e := v }
  | .h => { s with h := v }
  | .l => { s with l := v }
  | .a => { s with a := v }

/-- `rp[i]`: the pairs are views of their halves, the first-named register high (R23). -/
def State.rp (s : State) : RegPair → Word
  | .bc => pair s.b s.c
  | .de => pair s.d s.e
  | .hl => pair s.h s.l
  | .sp => s.sp

/-- `rp[i] <- v` writes both halves (R8). -/
def State.setRp (s : State) (p : RegPair) (v : Word) : State :=
  match p with
  | .bc => { s with b := hiByte v, c := loByte v }
  | .de => { s with d := hiByte v, e := loByte v }
  | .hl => { s with h := hiByte v, l := loByte v }
  | .sp => { s with sp := v }

/-- HL, the data pointer (R24). -/
def State.hl (s : State) : Word := s.rp .hl

/-- `pc <- target`. -/
def State.setPc (s : State) (v : Word) : State := { s with pc := v }

/-- Write the flags. -/
def State.setFlags (s : State) (f : Flags) : State := { s with flags := f }

/-! ### Memory locations (spec/20_memory.md R60, R68) -/

/-- The byte memory holds at an address. -/
def State.byteAt (s : State) (addr : Word) : Byte := s.mem.get addr.toNat

/-- What stands at an address by the platform's map (R68). -/
def State.kindOf (s : State) (addr : Word) : MemKind := kindAt s.map addr.toNat

/-- A byte arrives at a memory location, from this CPU or another master: RAM keeps it, "ROM (a write has no effect)", and
at a device or at nothing no stored byte changes (R68). -/
def State.store (s : State) (addr : Word) (v : Byte) : State :=
  match s.kindOf addr with
  | .ram => { s with mem := s.mem.set addr.toNat v }
  | .rom | .device => s

/-! ### Free values and the environment's answers -/

/-- `draw_8()` (R8): the next chosen byte, else the free byte of the counter (log entry 4). -/
def Env.draw (v : Env) : Byte × Env :=
  match v.choices with
  | x :: rest => (x, { v with choices := rest })
  | [] => (Config.freeByte v.draws, { v with draws := v.draws + 1 })

/-- The device's answer to an I/O read (R61), any value where none was given (U15). -/
def Env.ioAnswer (v : Env) : Byte × Env :=
  match v.ioIn with
  | x :: rest => (x, { v with ioIn := rest })
  | [] => v.draw

/-- The interrupting device's answer to an INTA cycle (R62). -/
def Env.intaAnswer (v : Env) : Byte × Env :=
  match v.intaIn with
  | x :: rest => (x, { v with intaIn := rest })
  | [] => v.draw

/-- The answer to a read of device memory or of nothing (R68, U15). -/
def Env.memAnswer (v : Env) : Byte × Env :=
  match v.memIn with
  | x :: rest => (x, { v with memIn := rest })
  | [] => v.draw

/-- `draw_8()` on the state. -/
def State.draw (s : State) : Byte × State := (s.env.draw.1, { s with env := s.env.draw.2 })

/-! ### Pins, hold and reset (spec/10_state.md R34 to R38, R43, spec/60_exceptions.md R273, R274) -/

/-- A pin takes a level. A rising edge of TRAP or RST 7.5 sets its flip-flop at any time but in reset (R273, R274, R299; in reset
DEDUCED, log entry 3, unsafe).
HOLD is granted at once, no transfer being under way between two transfers, and HLDA falls at once with it (R71, R72; at once is a
DESIGN CHOICE, log entry 3, unsafe); in reset there is "no hold acknowledge" (R320). -/
def State.setPin (s : State) (p : Pin) (level : Bool) : State :=
  match p with
  | .trap => { s with
      pins := { s.pins with trap := level }
      trapFF := s.trapFF || (level && !s.pins.trap && !s.pins.resetIn) }
  | .rst75 => { s with
      pins := { s.pins with rst75 := level }
      r75 := s.r75 || (level && !s.pins.rst75 && !s.pins.resetIn) }
  | .rst65 => { s with pins := { s.pins with rst65 := level } }
  | .rst55 => { s with pins := { s.pins with rst55 := level } }
  | .intr => { s with pins := { s.pins with intr := level } }
  | .sid => { s with pins := { s.pins with sid := level } }
  | .hold => { s with pins := { s.pins with hold := level }, hlda := level && !s.pins.resetIn }

/-- Another master may write memory: it has the bus by HLDA (R71), or the CPU is held in reset, its buses 3-stated (R320, R324). -/
def State.busFree (s : State) : Bool := s.hlda || s.pins.resetIn

/-- One event between two bus transfers; the other master writes only while it can have the bus. -/
def State.event (s : State) : Event → State
  | .pin p level => s.setPin p level
  | .dma addr v => if s.busFree then s.store addr v else s

/-- Events in order. -/
def State.events (s : State) : List Event → State
  | [] => s
  | e :: es => (s.event e).events es

/-- A register takes a free value. -/
def State.drawReg (s : State) (r : Reg) : State := s.draw.2.setReg r s.draw.1

/-- The flags take free values. -/
def State.drawFlags (s : State) : State := s.draw.2.setFlags (Flags.ofByte s.draw.1)

/-- SP takes a free value, the high byte first. -/
def State.drawSp (s : State) : State := { s.draw.2.draw.2 with sp := pair s.draw.1 s.draw.2.draw.1 }

/-- A to L, the flags and SP take free values: they "may be altered by RESET with unpredictable results" (R46, D14, U1). -/
def State.drawRegisters (s : State) : State :=
  (((((((s.drawReg .a).drawReg .b).drawReg .c).drawReg .d).drawReg .e).drawReg .h).drawReg .l).drawFlags.drawSp

/-- `Reset()` (spec/70_reset_and_hazards.md R320, spec/10_state.md R46): PC, the interrupt, serial and run-state flip-flops
take their reset values; the registers, flags and SP take free values. TRAP_IE is kept: its value after reset is
"irrelevant" (R46, log entry 1). Memory and devices are not reset (R321). -/
def State.assertReset (s : State) : State :=
  { s.drawRegisters with
    pc := 0
    ie := false
    m55 := true
    m65 := true
    m75 := true
    r75 := false
    trapFF := false
    trapRIM := false
    inhibit := false
    starting := true
    sod := false
    hlda := false
    halted := false
    pins := { s.pins with resetIn := true } }

/-- RESET IN is released: the CPU begins an opcode fetch at 0000H (R322), for which `assertReset` set `starting`. -/
def State.releaseReset (s : State) : State := { s with pins := { s.pins with resetIn := false } }

/-- One event between two steps. -/
def State.boundaryEvent (s : State) : BoundaryEvent → State
  | .bus e => s.event e
  | .resetIn true => s.assertReset
  | .resetIn false => s.releaseReset

/-- Boundary events in order. -/
def State.boundaryEvents (s : State) : List BoundaryEvent → State
  | [] => s
  | e :: es => (s.boundaryEvent e).boundaryEvents es

/-! ### Bus transfers (spec/20_memory.md R61 to R64, R68 to R73) -/

/-- Record a machine cycle. -/
def State.log (s : State) (kind : CycleKind) (addr : Option Word) (data : Option Byte) (base waits : Nat) : State :=
  { s with bus := s.bus ++ [⟨kind, addr, data, base, waits⟩] }

/-- A hold inside an instruction is over when the CPU makes its next transfer: "The processor can regain the bus only after
the HOLD is removed" (R71). -/
def State.endHold (s : State) : State := { s with pins := { s.pins with hold := false }, hlda := false }

/-- The gap before a bus transfer: what the environment does there, and the wait states of the transfer (R70 to R73). -/
def State.gap (s : State) : State × Nat :=
  match s.env.xfers with
  | [] => (s, 0)
  | x :: rest =>
    let t : State := { s with env := { s.env with xfers := rest } }
    ((t.events x.events).endHold, x.waits)

/-- What memory puts on the bus for a read: the stored byte of RAM or ROM, else the environment's answer (R68). -/
def State.sample (s : State) (addr : Word) : Byte × State :=
  match s.kindOf addr with
  | .ram | .rom => (s.byteAt addr, s)
  | .device => (s.env.memAnswer.1, { s with env := s.env.memAnswer.2 })

/-- `MemRead(addr, 1)` as an MR cycle of three T states (R68). -/
def State.memRead (s : State) (addr : Word) : Byte × State :=
  let g := s.gap
  let r := g.1.sample addr
  (r.1, r.2.log .memRead (some addr) (some r.1) 3 g.2)

/-- `MemRead(pc, 1)` as an OF cycle, whose length the byte read settles (R101, R331). -/
def State.opFetch (s : State) : Byte × State :=
  let g := s.gap
  let r := g.1.sample s.pc
  (r.1, (r.2.log .opFetch (some s.pc) (some r.1) (fetchTStates r.1) g.2))

/-- `MemWrite(addr, 1, v)` as an MW cycle (R68). -/
def State.memWrite (s : State) (addr : Word) (v : Byte) : State :=
  let g := s.gap
  (g.1.store addr v).log .memWrite (some addr) (some v) 3 g.2

/-- `IoRead(port)` as an IOR cycle, the port on both halves of the address (R61). -/
def State.ioRead (s : State) (port : Byte) : Byte × State :=
  let g := s.gap
  let r := g.1.env.ioAnswer
  let t : State := { g.1 with env := r.2 }
  (r.1, t.log .ioRead (some (pair port port)) (some r.1) 3 g.2)

/-- `IoWrite(port, v)` as an IOW cycle (R61): an output event, nothing else of the machine changes. -/
def State.ioWrite (s : State) (port : Byte) (v : Byte) : State :=
  let g := s.gap
  g.1.log .ioWrite (some (pair port port)) (some v) 3 g.2

/-- `IntaRead()` as an INA cycle of `base` T states, PC on the address bus and not incremented (R62, R282). -/
def State.intaRead (s : State) (base : Nat) : Byte × State :=
  let g := s.gap
  let r := g.1.env.intaAnswer
  let t : State := { g.1 with env := r.2 }
  (r.1, t.log .intAck (some s.pc) (some r.1) base g.2)

/-- A bus idle cycle: no transfer (R64, R80 (b), (c)). -/
def State.idle (s : State) (kind : CycleKind) (base : Nat) : State := s.log kind none none base 0

/-! ### Sixteen bits (R69, R150) -/

/-- `MemRead(addr, 2)`: the low byte first, from `addr`, then the high byte (R69). -/
def State.memRead16 (s : State) (addr : Word) : Word × State :=
  let lo := s.memRead addr
  let hi := lo.2.memRead (addr + 1)
  (pair hi.1 lo.1, hi.2)

/-- `MemWrite(addr, 2, v)`: the low byte first (R69). -/
def State.memWrite16 (s : State) (addr : Word) (v : Word) : State :=
  (s.memWrite addr (loByte v)).memWrite (addr + 1) (hiByte v)

/-- `Push16(v)`: the high byte at SP - 1, then the low byte at SP - 2 (R150). -/
def State.push16 (s : State) (v : Word) : State :=
  let t := (s.memWrite (s.sp - 1) (hiByte v)).memWrite (s.sp - 2) (loByte v)
  { t with sp := s.sp - 2 }

/-- `Pop16()`: the low byte from SP, then the high byte from SP + 1 (R150). -/
def State.pop16 (s : State) : Word × State :=
  let r := s.memRead16 s.sp
  (r.1, { r.2 with sp := s.sp + 2 })

/-! ### Control transfers (spec/42_jump_call_return_restart.md) -/

/-- Push the address of the next instruction and go to `target`: CALL (R176), RST (R194), and the push and branch of
every interrupt acceptance (R281 to R283). -/
def State.callTo (s : State) (target : Word) : State := (s.push16 s.pc).setPc target

/-- `pc <- Pop16()`: RET (R185), which is also the return from an interrupt routine and restores nothing else (R287). -/
def State.returnFrom (s : State) : State :=
  let r := s.pop16
  r.2.setPc r.1

/-- The restart address `8 * n` (R106). -/
def restartVector (n : Nat) : Word := BitVec.ofNat 16 (8 * n)

/-! ### Interrupts (spec/60_exceptions.md) -/

/-- The five interrupt inputs (R271). -/
inductive Request where
  | trap | rst75 | rst65 | rst55 | intr
  deriving DecidableEq, Repr

/-- When a request is valid (R272). -/
def State.valid (s : State) : Request → Bool
  | .trap => s.trapFF && s.pins.trap
  | .rst75 => s.ie && !s.m75 && s.r75
  | .rst65 => s.ie && !s.m65 && s.pins.rst65
  | .rst55 => s.ie && !s.m55 && s.pins.rst55
  | .intr => s.ie && s.pins.intr

/-- The fixed priority (R280). -/
def State.selectInterrupt (s : State) : Option Request :=
  if s.valid .trap then some .trap
  else if s.valid .rst75 then some .rst75
  else if s.valid .rst65 then some .rst65
  else if s.valid .rst55 then some .rst55
  else if s.valid .intr then some .intr
  else none

/-- Addresses branched to (R271, R281): TRAP, RST 7.5, RST 6.5, RST 5.5; INTR's comes from the device, and its entry here is
read by nothing. -/
def vectorOf : Request → Word
  | .trap => 0x0024
  | .rst75 => 0x003C
  | .rst65 => 0x0034
  | .rst55 => 0x002C
  | .intr => 0

/-- What every acceptance does to the flip-flops (R281, R282, R285): leave the halt state, clear IE, save IE on TRAP, and
clear the accepted request's latch. -/
def State.acknowledge (s : State) (q : Request) : State :=
  match q with
  | .trap => { s with halted := false, trapIE := s.ie, trapRIM := true, trapFF := false, ie := false }
  | .rst75 => { s with halted := false, r75 := false, ie := false }
  | .rst65 | .rst55 | .intr => { s with halted := false, ie := false }

/-- `AcceptRestart(which)` (R281): an internal RESTART, acknowledged by a bus idle cycle of six T states. -/
def State.acceptRestart (s : State) (q : Request) : State :=
  ((s.acknowledge q).idle .idleAck 6).callTo (vectorOf q)

/-- `AcceptINTR()` (R282, R283, R284): the device supplies RST n, or CALL and its address; any other byte is refused. -/
def State.acceptIntr (s : State) : Result :=
  let op := (s.acknowledge .intr).intaRead 6
  if opGroup op.1 = 3 ∧ opLow op.1 = 7 then .next (op.2.callTo (restartVector (opMid op.1)))
  else if op.1 = 0xCD then
    let lo := op.2.intaRead 3
    let hi := lo.2.intaRead 3
    .next (hi.2.callTo (pair hi.1 lo.1))
  else .refused (.intaOpcode op.1)

/-- Accept a request: the ONE entry operation of the model. -/
def State.accept (s : State) (q : Request) : Result :=
  match q with
  | .intr => s.acceptIntr
  | .trap | .rst75 | .rst65 | .rst55 => .next (s.acceptRestart q)

end Sys2Proof.Machine
end

