-- ==== Sys2Proof/Machine/Operands.lean ====
section
/-! DEFINITION. Operand forms: M, the byte at HL (spec/10_state.md R24), and what the accumulator instructions do with an
operand once it is read. Register and pair operands are `State.reg` and `State.rp`; immediates are the bytes themselves. -/

namespace Sys2Proof.Machine

/-- Read operand M: `MemRead(HL, 1)` (R24). -/
def State.readM (s : State) : Byte × State := s.memRead s.hl

/-- Write operand M: `MemWrite(HL, 1, v)` (R24). -/
def State.writeM (s : State) (v : Byte) : State := s.memWrite s.hl v

/-- Result to A and all five flags: the ADD and SUBTRACT groups (R31). -/
def State.aluToA (s : State) (r : AluOut) : State := { s with a := r.res, flags := s.flags.ofAlu r }

/-- All five flags and no result: the compares (R238). -/
def State.compare (s : State) (v : Byte) : State := s.setFlags (s.flags.ofAlu (sub8 s.a v false))

/-- Add an operand and a carry to A (R215, R216). -/
def State.addToA (s : State) (v : Byte) (cin : Bool) : State := s.aluToA (add8 s.a v cin)

/-- Subtract an operand and a borrow from A (R222, R223). -/
def State.subFromA (s : State) (v : Byte) (bin : Bool) : State := s.aluToA (sub8 s.a v bin)

/-- Logical result to A; S, Z, P from it, AC as given, CY 0 (R235 to R237). -/
def State.logicToA (s : State) (v : Byte) (ac : Bool) : State := { s with a := v, flags := s.flags.ofLogic v ac }

/-- AND an operand into A, AC by the parameter ANA_AC_MODE (R235, D15). -/
def State.andToA (s : State) (v : Byte) : State := s.logicToA (s.a &&& v) (andAc s.anaAc s.a v)

/-- Exclusive-or an operand into A (R236). -/
def State.xorToA (s : State) (v : Byte) : State := s.logicToA (s.a ^^^ v) false

/-- OR an operand into A (R237). -/
def State.orToA (s : State) (v : Byte) : State := s.logicToA (s.a ||| v) false

/-- Add a pair to HL; only CY is written, from bit 16 of the 17-bit sum, after two bus idle cycles (R221). -/
def State.dad (s : State) (p : RegPair) : State :=
  let s17 : BitVec 17 := s.hl.setWidth 17 + (s.rp p).setWidth 17
  let t := (s.idle .idleDad 3).idle .idleDad 3
  (t.setRp .hl (s17.setWidth 16)).setFlags { s.flags with cy := s17.getLsbD 16 }

/-- Replace A and CY: the rotates (R247 to R250). -/
def State.rotate (s : State) (v : Byte) (cy : Bool) : State := { s with a := v, flags := { s.flags with cy := cy } }

/-- Jump to an address if a condition holds (R167 to R174). -/
def State.jumpIf (s : State) (cc : Cond) (addr : Word) : State := if condHolds s.flags cc then s.setPc addr else s

/-- Call an address if a condition holds (R177 to R184). -/
def State.callIf (s : State) (cc : Cond) (addr : Word) : State := if condHolds s.flags cc then s.callTo addr else s

/-- Return if a condition holds (R186 to R193). -/
def State.returnIf (s : State) (cc : Cond) : State := if condHolds s.flags cc then s.returnFrom else s

end Sys2Proof.Machine
end

