-- ==== Sys2Proof/Machine/Fetch.lean ====
section
/-! DEFINITION. Fetching an instruction (spec/30_encoding.md R101): byte 1 by an opcode fetch, bytes 2 and 3 by memory reads at
ascending addresses, PC one further after each. -/

namespace Sys2Proof.Machine

/-- `Fetch8()` for bytes 2 and 3 (R8). -/
def State.fetch8 (s : State) : Byte × State :=
  let r := s.memRead s.pc
  (r.1, r.2.setPc (s.pc + 1))

/-- Whether an opcode is a conditional jump or call whose condition is false: byte 3 is then skipped, not read (R80 (a),
R331, conflict C12). -/
def skipsThird (op : Byte) (f : Flags) : Bool :=
  decide (opGroup op = 3) && (decide (opLow op = 2) || decide (opLow op = 4)) &&
    !(condHolds f (Cond.ofCode (opMid op)))

/-- PC goes past a byte that is not read. The byte named is the one memory holds; the instruction makes no use of it
(DESIGN CHOICE, log entry 10, safe). -/
def State.skip8 (s : State) : Byte × State := (s.byteAt s.pc, s.setPc (s.pc + 1))

/-- What a fetch gives: an instruction and the state it runs in, or the unassigned byte (R110). -/
inductive Fetched where
  | ok (i : Instr) (s : State)
  | unused (op : Byte)
  deriving DecidableEq, Repr

/-- Fetch and decode (R101). -/
def State.fetch (s : State) : Fetched :=
  let op := s.opFetch
  let t := op.2.setPc (s.pc + 1)
  match decodeOp op.1 with
  | .r i => .ok i t
  | .i8 f =>
    let b2 := t.fetch8
    .ok (f b2.1) b2.2
  | .i16 f =>
    let b2 := t.fetch8
    let b3 := if skipsThird op.1 s.flags then b2.2.skip8 else b2.2.fetch8
    .ok (f (pair b3.1 b2.1)) b3.2
  | .unused => .unused op.1

end Sys2Proof.Machine
end

