-- ==== Sys2Proof/Machine/Cycle.lean ====
section
/-! DEFINITION. The instruction boundary of `CpuStep` (spec/00_scope.md R11, decision D9): what happens before an instruction is
fetched, and placing an instruction where the next step fetches. -/

namespace Sys2Proof.Machine

/-- What the environment does before this step, and the record of the last step's machine cycles put away (R11: "Pin edges
are latched between steps", D9). -/
def State.takeInputs (s : State) : State :=
  match s.env.inputs with
  | [] => { s with bus := [] }
  | es :: rest =>
    let t : State := { s with bus := [], env := { s.env with inputs := rest } }
    t.boundaryEvents es

/-- How a boundary ends: the step is over with an answer, or an instruction is fetched in a state. -/
inductive Boundary where
  | done (r : Result)
  | run (s : State)

/-- The boundary once the inputs are taken (R11; the order is D9's, with the hold check's place a DESIGN CHOICE, log entry 11):
in reset no step; in hold no transfer, so neither an acceptance nor a fetch (R291, log entry 6); the fetch at 0000H that the
release of RESET IN begins comes before any request is evaluated (R322), and an inhibited boundary evaluates none (R279); a valid
request is accepted by priority (R280); in the halt state nothing is fetched (R290). -/
def State.boundary (s : State) : Boundary :=
  if s.pins.resetIn then .done (.next s)
  else if s.pins.hold then .done (.next { s with hlda := true })
  else
    let t : State := { s with hlda := false }
    if t.starting || t.inhibit then
      let u : State := { t with starting := false, inhibit := false }
      if u.halted then .done (.next u) else .run u
    else
      match t.selectInterrupt with
      | some q => .done (t.accept q)
      | none => if t.halted then .done (.next t) else .run t

/-- Memory contents put at an address from outside the machine, whatever the map says of writes (log entry 7). -/
def State.poke (s : State) (addr : Word) (v : Byte) : State := { s with mem := s.mem.set addr.toNat v }

/-- An address reads its stored byte: where the map has a device there, one byte of RAM is put in front of it. -/
def State.backed (s : State) (addr : Word) : State :=
  match s.kindOf addr with
  | .ram | .rom => s
  | .device => { s with map := ⟨addr.toNat, 1, .ram⟩ :: s.map }

/-- Three bytes put at PC, PC + 1 and PC + 2. -/
def State.placeAtPc (s : State) (b1 b2 b3 : Byte) : State :=
  (((((s.poke s.pc b1).poke (s.pc + 1) b2).poke (s.pc + 2) b3).backed s.pc).backed (s.pc + 1)).backed (s.pc + 2)

/-- Nothing keeps the next step from fetching: no input is to come, reset and hold are off, the CPU is not halted, and a
boundary at which a request would be accepted is an inhibited one (the first one after reset evaluates none). -/
def State.readyToFetch (s : State) : State :=
  let t : State := { s with
    env := { s.env with inputs := [], xfers := [] }
    pins := { s.pins with resetIn := false, hold := false }
    halted := false }
  { t with inhibit := t.inhibit || (!t.starting && t.selectInterrupt.isSome) }

end Sys2Proof.Machine
end

