-- ==== Sys2Proof/Machine/AddSub.lean ====
section
/-! DEFINITION. ADD and SUBTRACT (spec/45_add_subtract.md R215 to R227). All five flags are written; DAD writes only CY. -/

namespace Sys2Proof.Machine

/-- `ADD r` (R215). -/
def execAddR (src : Reg) (s : State) : Result := .next (s.addToA (s.reg src) false)

/-- `ADC r` (R216): CY is read before it is written. -/
def execAdcR (src : Reg) (s : State) : Result := .next (s.addToA (s.reg src) s.flags.cy)

/-- `ADD M` (R217). -/
def execAddM (s : State) : Result := .next (s.readM.2.addToA s.readM.1 false)

/-- `ADC M` (R218). -/
def execAdcM (s : State) : Result := .next (s.readM.2.addToA s.readM.1 s.flags.cy)

/-- `ADI data` (R219). -/
def execAdi (data : Byte) (s : State) : Result := .next (s.addToA data false)

/-- `ACI data` (R220). -/
def execAci (data : Byte) (s : State) : Result := .next (s.addToA data s.flags.cy)

/-- `DAD B` (R221). -/
def execDadB (s : State) : Result := .next (s.dad .bc)

/-- `DAD D` (R221). -/
def execDadD (s : State) : Result := .next (s.dad .de)

/-- `DAD H` (R221). -/
def execDadH (s : State) : Result := .next (s.dad .hl)

/-- `DAD SP` (R221). -/
def execDadSP (s : State) : Result := .next (s.dad .sp)

/-- `SUB r` (R222). -/
def execSubR (src : Reg) (s : State) : Result := .next (s.subFromA (s.reg src) false)

/-- `SBB r` (R223): CY is the incoming borrow. -/
def execSbbR (src : Reg) (s : State) : Result := .next (s.subFromA (s.reg src) s.flags.cy)

/-- `SUB M` (R224). -/
def execSubM (s : State) : Result := .next (s.readM.2.subFromA s.readM.1 false)

/-- `SBB M` (R225). -/
def execSbbM (s : State) : Result := .next (s.readM.2.subFromA s.readM.1 s.flags.cy)

/-- `SUI data` (R226). -/
def execSui (data : Byte) (s : State) : Result := .next (s.subFromA data false)

/-- `SBI data` (R227). -/
def execSbi (data : Byte) (s : State) : Result := .next (s.subFromA data s.flags.cy)

end Sys2Proof.Machine
end

