-- ==== Sys2Proof/Machine/Branch.lean ====
section
/-! DEFINITION. JUMP, CALL, RETURN, RESTART (spec/42_jump_call_return_restart.md R165 to R194). PC is past the
instruction when they run (R101), whether or not the condition holds. None writes a flag. -/

namespace Sys2Proof.Machine

/-- `JMP addr` (R166). -/
def execJmp (addr : Word) (s : State) : Result := .next (s.setPc addr)

/-- `JC addr` (R167). -/
def execJc (addr : Word) (s : State) : Result := .next (s.jumpIf .c addr)

/-- `JNC addr` (R168). -/
def execJnc (addr : Word) (s : State) : Result := .next (s.jumpIf .nc addr)

/-- `JZ addr` (R169). -/
def execJz (addr : Word) (s : State) : Result := .next (s.jumpIf .z addr)

/-- `JNZ addr` (R170). -/
def execJnz (addr : Word) (s : State) : Result := .next (s.jumpIf .nz addr)

/-- `JP addr` (R171). -/
def execJp (addr : Word) (s : State) : Result := .next (s.jumpIf .p addr)

/-- `JM addr` (R172). -/
def execJm (addr : Word) (s : State) : Result := .next (s.jumpIf .m addr)

/-- `JPE addr` (R173). -/
def execJpe (addr : Word) (s : State) : Result := .next (s.jumpIf .pe addr)

/-- `JPO addr` (R174). -/
def execJpo (addr : Word) (s : State) : Result := .next (s.jumpIf .po addr)

/-- `PCHL` (R175). -/
def execPchl (s : State) : Result := .next (s.setPc s.hl)

/-- `CALL addr` (R176): the pushed PC is the address of the next instruction. -/
def execCall (addr : Word) (s : State) : Result := .next (s.callTo addr)

/-- `CC addr` (R177). -/
def execCc (addr : Word) (s : State) : Result := .next (s.callIf .c addr)

/-- `CNC addr` (R178). -/
def execCnc (addr : Word) (s : State) : Result := .next (s.callIf .nc addr)

/-- `CZ addr` (R179). -/
def execCz (addr : Word) (s : State) : Result := .next (s.callIf .z addr)

/-- `CNZ addr` (R180). -/
def execCnz (addr : Word) (s : State) : Result := .next (s.callIf .nz addr)

/-- `CP addr` (R181). -/
def execCp (addr : Word) (s : State) : Result := .next (s.callIf .p addr)

/-- `CM addr` (R182). -/
def execCm (addr : Word) (s : State) : Result := .next (s.callIf .m addr)

/-- `CPE addr` (R183). -/
def execCpe (addr : Word) (s : State) : Result := .next (s.callIf .pe addr)

/-- `CPO addr` (R184). -/
def execCpo (addr : Word) (s : State) : Result := .next (s.callIf .po addr)

/-- `RET` (R185). -/
def execRet (s : State) : Result := .next s.returnFrom

/-- `RC` (R186). -/
def execRc (s : State) : Result := .next (s.returnIf .c)

/-- `RNC` (R187). -/
def execRnc (s : State) : Result := .next (s.returnIf .nc)

/-- `RZ` (R188). -/
def execRz (s : State) : Result := .next (s.returnIf .z)

/-- `RNZ` (R189). -/
def execRnz (s : State) : Result := .next (s.returnIf .nz)

/-- `RP` (R190). -/
def execRp (s : State) : Result := .next (s.returnIf .p)

/-- `RM` (R191). -/
def execRm (s : State) : Result := .next (s.returnIf .m)

/-- `RPE` (R192). -/
def execRpe (s : State) : Result := .next (s.returnIf .pe)

/-- `RPO` (R193). -/
def execRpo (s : State) : Result := .next (s.returnIf .po)

/-- `RST n` (R194). -/
def execRst (n : Nat) (s : State) : Result := .next (s.callTo (restartVector n))

end Sys2Proof.Machine
end

