-- ==== Sys2Proof/Machine/Control.lean ====
section
/-! DEFINITION. CONTROL and the NEW 8085A INSTRUCTIONS (spec/47_control_rim_sim.md R260 to R265). None writes a flag; all are
legal at all times (R292). -/

namespace Sys2Proof.Machine

/-- `EI` (R260): INHIBIT holds off recognition at the next boundary (R279). -/
def execEi (s : State) : Result := .next { s with ie := true, inhibit := true }

/-- `DI` (R261): INHIBIT holds off recognition at the next boundary (R279). -/
def execDi (s : State) : Result := .next { s with ie := false, inhibit := true }

/-- `NOP` (R262). -/
def execNop (s : State) : Result := .next s

/-- `HLT` (R263): one more T state, then the halt state. -/
def execHlt (s : State) : Result := .next { s.idle .idleHalt 1 with halted := true }

/-- `RIM` (R264): the image of R42; the first RIM after a TRAP reports TRAP_IE (R36). -/
def execRim (s : State) : Result :=
  let ie := if s.trapRIM then s.trapIE else s.ie
  let image := byteOfBits s.pins.sid s.r75 s.pins.rst65 s.pins.rst55 ie s.m75 s.m65 s.m55
  .next { s with a := image, trapRIM := false }

/-- `SIM` (R265): the image of R41; A[5] is ignored. -/
def execSim (s : State) : Result :=
  let mse := s.a.getLsbD 3
  .next { s with
    m75 := if mse then s.a.getLsbD 2 else s.m75
    m65 := if mse then s.a.getLsbD 1 else s.m65
    m55 := if mse then s.a.getLsbD 0 else s.m55
    r75 := if s.a.getLsbD 4 then false else s.r75
    sod := if s.a.getLsbD 6 then s.a.getLsbD 7 else s.sod }

end Sys2Proof.Machine
end

