-- ==== Sys2Proof/Machine/IncDec.lean ====
section
/-! DEFINITION. INCREMENT AND DECREMENT (spec/44_increment_decrement.md R205 to R210). INX and DCX write no flag. -/

namespace Sys2Proof.Machine

/-- `INR r` (R205): CY is unchanged. -/
def execInrR (dst : Reg) (s : State) : Result :=
  let r := add8 (s.reg dst) 1 false
  .next ((s.setReg dst r.res).setFlags (s.flags.ofStep r))

/-- `DCR r` (R206): CY is unchanged. -/
def execDcrR (dst : Reg) (s : State) : Result :=
  let r := sub8 (s.reg dst) 1 false
  .next ((s.setReg dst r.res).setFlags (s.flags.ofStep r))

/-- `INR M` (R207): a read, then a write; CY is unchanged. -/
def execInrM (s : State) : Result :=
  let m := s.readM
  let r := add8 m.1 1 false
  .next ((m.2.writeM r.res).setFlags (s.flags.ofStep r))

/-- `DCR M` (R208): a read, then a write; CY is unchanged. -/
def execDcrM (s : State) : Result :=
  let m := s.readM
  let r := sub8 m.1 1 false
  .next ((m.2.writeM r.res).setFlags (s.flags.ofStep r))

/-- `INX B` (R209). -/
def execInxB (s : State) : Result := .next (s.setRp .bc (s.rp .bc + 1))

/-- `INX D` (R209). -/
def execInxD (s : State) : Result := .next (s.setRp .de (s.rp .de + 1))

/-- `INX H` (R209). -/
def execInxH (s : State) : Result := .next (s.setRp .hl (s.rp .hl + 1))

/-- `DCX B` (R210). -/
def execDcxB (s : State) : Result := .next (s.setRp .bc (s.rp .bc - 1))

/-- `DCX D` (R210). -/
def execDcxD (s : State) : Result := .next (s.setRp .de (s.rp .de - 1))

/-- `DCX H` (R210). -/
def execDcxH (s : State) : Result := .next (s.setRp .hl (s.rp .hl - 1))

end Sys2Proof.Machine
end

