-- ==== Sys2Proof/Machine/InputOutput.lean ====
section
/-! DEFINITION. INPUT/OUTPUT (spec/43_input_output.md R200, R201). No flag is written. -/

namespace Sys2Proof.Machine

/-- `IN port` (R200). -/
def execInp (port : Byte) (s : State) : Result := .next ((s.ioRead port).2.setReg .a (s.ioRead port).1)

/-- `OUT port` (R201): an output event; A is unchanged. -/
def execOut (port : Byte) (s : State) : Result := .next (s.ioWrite port s.a)

end Sys2Proof.Machine
end

