-- ==== Sys2Proof/Machine/Logical.lean ====
section
/-! DEFINITION. LOGICAL, ROTATE, SPECIALS (spec/46_logical_rotate_specials.md R235 to R254). -/

namespace Sys2Proof.Machine

/-- `ANA r` (R235). -/
def execAnaR (src : Reg) (s : State) : Result := .next (s.andToA (s.reg src))

/-- `XRA r` (R236). -/
def execXraR (src : Reg) (s : State) : Result := .next (s.xorToA (s.reg src))

/-- `ORA r` (R237). -/
def execOraR (src : Reg) (s : State) : Result := .next (s.orToA (s.reg src))

/-- `CMP r` (R238): A is not written. -/
def execCmpR (src : Reg) (s : State) : Result := .next (s.compare (s.reg src))

/-- `ANA M` (R239). -/
def execAnaM (s : State) : Result := .next (s.readM.2.andToA s.readM.1)

/-- `XRA M` (R240). -/
def execXraM (s : State) : Result := .next (s.readM.2.xorToA s.readM.1)

/-- `ORA M` (R241). -/
def execOraM (s : State) : Result := .next (s.readM.2.orToA s.readM.1)

/-- `CMP M` (R242). -/
def execCmpM (s : State) : Result := .next (s.readM.2.compare s.readM.1)

/-- `ANI data` (R243). -/
def execAni (data : Byte) (s : State) : Result := .next (s.andToA data)

/-- `XRI data` (R244). -/
def execXri (data : Byte) (s : State) : Result := .next (s.xorToA data)

/-- `ORI data` (R245). -/
def execOri (data : Byte) (s : State) : Result := .next (s.orToA data)

/-- `CPI data` (R246). -/
def execCpi (data : Byte) (s : State) : Result := .next (s.compare data)

/-- `RLC` (R247): `A <- A[6:0] : A[7]`, CY the bit that wraps round. -/
def execRlc (s : State) : Result := .next (s.rotate (s.a.extractLsb' 0 7 ++ s.a.extractLsb' 7 1) (s.a.getLsbD 7))

/-- `RRC` (R248): `A <- A[0] : A[7:1]`. -/
def execRrc (s : State) : Result := .next (s.rotate (s.a.extractLsb' 0 1 ++ s.a.extractLsb' 1 7) (s.a.getLsbD 0))

/-- `RAL` (R249): `A <- A[6:0] : CY`. -/
def execRal (s : State) : Result := .next (s.rotate (s.a.extractLsb' 0 7 ++ BitVec.ofBool s.flags.cy) (s.a.getLsbD 7))

/-- `RAR` (R250): `A <- CY : A[7:1]`. -/
def execRar (s : State) : Result := .next (s.rotate (BitVec.ofBool s.flags.cy ++ s.a.extractLsb' 1 7) (s.a.getLsbD 0))

/-- `CMA` (R251): no flag is written. -/
def execCma (s : State) : Result := .next (s.setReg .a (~~~s.a))

/-- `STC` (R252). -/
def execStc (s : State) : Result := .next (s.setFlags { s.flags with cy := true })

/-- `CMC` (R253). -/
def execCmc (s : State) : Result := .next (s.setFlags { s.flags with cy := !s.flags.cy })

/-- `DAA` (R254). -/
def execDaa (s : State) : Result := .next (s.aluToA (daa8 s.a s.flags.ac s.flags.cy))

end Sys2Proof.Machine
end

