-- ==== Sys2Proof/Machine/MoveLoadStore.lean ====
section
/-! DEFINITION. MOVE, LOAD, AND STORE (spec/40_move_load_store.md R130 to R142). None writes a flag. -/

namespace Sys2Proof.Machine

/-- `MOV r1,r2` (R130). -/
def execMovRR (dst : Reg) (src : Reg) (s : State) : Result := .next (s.setReg dst (s.reg src))

/-- `MOV M,r` (R131). -/
def execMovMR (src : Reg) (s : State) : Result := .next (s.writeM (s.reg src))

/-- `MOV r,M` (R132): the address is HL before the register is written. -/
def execMovRM (dst : Reg) (s : State) : Result := .next (s.readM.2.setReg dst s.readM.1)

/-- `MVI r,data` (R133). -/
def execMviR (dst : Reg) (data : Byte) (s : State) : Result := .next (s.setReg dst data)

/-- `MVI M,data` (R134). -/
def execMviM (data : Byte) (s : State) : Result := .next (s.writeM data)

/-- `LXI B,data` (R135). -/
def execLxiB (data : Word) (s : State) : Result := .next (s.setRp .bc data)

/-- `LXI D,data` (R135). -/
def execLxiD (data : Word) (s : State) : Result := .next (s.setRp .de data)

/-- `LXI H,data` (R135). -/
def execLxiH (data : Word) (s : State) : Result := .next (s.setRp .hl data)

/-- `STAX B` (R136). -/
def execStaxB (s : State) : Result := .next (s.memWrite (s.rp .bc) s.a)

/-- `STAX D` (R136). -/
def execStaxD (s : State) : Result := .next (s.memWrite (s.rp .de) s.a)

/-- `LDAX B` (R137). -/
def execLdaxB (s : State) : Result := .next ((s.memRead (s.rp .bc)).2.setReg .a (s.memRead (s.rp .bc)).1)

/-- `LDAX D` (R137). -/
def execLdaxD (s : State) : Result := .next ((s.memRead (s.rp .de)).2.setReg .a (s.memRead (s.rp .de)).1)

/-- `STA addr` (R138). -/
def execSta (addr : Word) (s : State) : Result := .next (s.memWrite addr s.a)

/-- `LDA addr` (R139). -/
def execLda (addr : Word) (s : State) : Result := .next ((s.memRead addr).2.setReg .a (s.memRead addr).1)

/-- `SHLD addr` (R140): L at the address, H at the next. -/
def execShld (addr : Word) (s : State) : Result := .next (s.memWrite16 addr s.hl)

/-- `LHLD addr` (R141): L from the address, H from the next. -/
def execLhld (addr : Word) (s : State) : Result := .next ((s.memRead16 addr).2.setRp .hl (s.memRead16 addr).1)

/-- `XCHG` (R142). -/
def execXchg (s : State) : Result := .next ((s.setRp .hl (s.rp .de)).setRp .de s.hl)

end Sys2Proof.Machine
end

