-- ==== Sys2Proof/Machine/StackOps.lean ====
section
/-! DEFINITION. STACK OPS (spec/41_stack_ops.md R150 to R159). Only POP PSW writes flags. -/

namespace Sys2Proof.Machine

/-- `PUSH B` (R151). -/
def execPushB (s : State) : Result := .next (s.push16 (s.rp .bc))

/-- `PUSH D` (R151). -/
def execPushD (s : State) : Result := .next (s.push16 (s.rp .de))

/-- `PUSH H` (R151). -/
def execPushH (s : State) : Result := .next (s.push16 (s.rp .hl))

/-- `PUSH PSW` (R152): bits 5, 3, 1 of the flag byte are free values (R29, D11). -/
def execPushPSW (s : State) : Result :=
  let x := s.draw
  .next (x.2.push16 (pair s.a (s.flags.toByte x.1)))

/-- `POP B` (R153). -/
def execPopB (s : State) : Result := .next (s.pop16.2.setRp .bc s.pop16.1)

/-- `POP D` (R153). -/
def execPopD (s : State) : Result := .next (s.pop16.2.setRp .de s.pop16.1)

/-- `POP H` (R153). -/
def execPopH (s : State) : Result := .next (s.pop16.2.setRp .hl s.pop16.1)

/-- `POP PSW` (R154). -/
def execPopPSW (s : State) : Result :=
  let r := s.pop16
  .next ((r.2.setReg .a (hiByte r.1)).setFlags (Flags.ofByte (loByte r.1)))

/-- `XTHL` (R155): the two reads, then H at SP + 1 and L at SP; SP is unchanged. -/
def execXthl (s : State) : Result :=
  let r := s.memRead16 s.sp
  let t := (r.2.memWrite (s.sp + 1) s.h).memWrite s.sp s.l
  .next (t.setRp .hl r.1)

/-- `SPHL` (R156). -/
def execSphl (s : State) : Result := .next (s.setRp .sp s.hl)

/-- `LXI SP,data` (R157). -/
def execLxiSP (data : Word) (s : State) : Result := .next (s.setRp .sp data)

/-- `INX SP` (R158). -/
def execInxSP (s : State) : Result := .next (s.setRp .sp (s.rp .sp + 1))

/-- `DCX SP` (R159). -/
def execDcxSP (s : State) : Result := .next (s.setRp .sp (s.rp .sp - 1))

end Sys2Proof.Machine
end

