-- ==== Sys2Proof/Machine/Dispatch.lean ====
section
/-! DEFINITION. What an instruction does, one arm per row of spec/opcode_table.json. PC is past the instruction already (R101). -/

namespace Sys2Proof.Machine

/-- Execute an instruction whose bytes have been fetched. -/
def exec (i : Instr) (s : State) : Host.Outcome State Fault Refusal :=
  match i with
  | .movRR dst src => Sys2Proof.Machine.execMovRR dst src s
  | .movMR src => Sys2Proof.Machine.execMovMR src s
  | .movRM dst => Sys2Proof.Machine.execMovRM dst s
  | .mviR dst data => Sys2Proof.Machine.execMviR dst data s
  | .mviM data => Sys2Proof.Machine.execMviM data s
  | .lxiB data => Sys2Proof.Machine.execLxiB data s
  | .lxiD data => Sys2Proof.Machine.execLxiD data s
  | .lxiH data => Sys2Proof.Machine.execLxiH data s
  | .staxB => Sys2Proof.Machine.execStaxB s
  | .staxD => Sys2Proof.Machine.execStaxD s
  | .ldaxB => Sys2Proof.Machine.execLdaxB s
  | .ldaxD => Sys2Proof.Machine.execLdaxD s
  | .sta addr => Sys2Proof.Machine.execSta addr s
  | .lda addr => Sys2Proof.Machine.execLda addr s
  | .shld addr => Sys2Proof.Machine.execShld addr s
  | .lhld addr => Sys2Proof.Machine.execLhld addr s
  | .xchg => Sys2Proof.Machine.execXchg s
  | .pushB => Sys2Proof.Machine.execPushB s
  | .pushD => Sys2Proof.Machine.execPushD s
  | .pushH => Sys2Proof.Machine.execPushH s
  | .pushPSW => Sys2Proof.Machine.execPushPSW s
  | .popB => Sys2Proof.Machine.execPopB s
  | .popD => Sys2Proof.Machine.execPopD s
  | .popH => Sys2Proof.Machine.execPopH s
  | .popPSW => Sys2Proof.Machine.execPopPSW s
  | .xthl => Sys2Proof.Machine.execXthl s
  | .sphl => Sys2Proof.Machine.execSphl s
  | .lxiSP data => Sys2Proof.Machine.execLxiSP data s
  | .inxSP => Sys2Proof.Machine.execInxSP s
  | .dcxSP => Sys2Proof.Machine.execDcxSP s
  | .jmp addr => Sys2Proof.Machine.execJmp addr s
  | .jc addr => Sys2Proof.Machine.execJc addr s
  | .jnc addr => Sys2Proof.Machine.execJnc addr s
  | .jz addr => Sys2Proof.Machine.execJz addr s
  | .jnz addr => Sys2Proof.Machine.execJnz addr s
  | .jp addr => Sys2Proof.Machine.execJp addr s
  | .jm addr => Sys2Proof.Machine.execJm addr s
  | .jpe addr => Sys2Proof.Machine.execJpe addr s
  | .jpo addr => Sys2Proof.Machine.execJpo addr s
  | .pchl => Sys2Proof.Machine.execPchl s
  | .call addr => Sys2Proof.Machine.execCall addr s
  | .cc addr => Sys2Proof.Machine.execCc addr s
  | .cnc addr => Sys2Proof.Machine.execCnc addr s
  | .cz addr => Sys2Proof.Machine.execCz addr s
  | .cnz addr => Sys2Proof.Machine.execCnz addr s
  | .cp addr => Sys2Proof.Machine.execCp addr s
  | .cm addr => Sys2Proof.Machine.execCm addr s
  | .cpe addr => Sys2Proof.Machine.execCpe addr s
  | .cpo addr => Sys2Proof.Machine.execCpo addr s
  | .ret => Sys2Proof.Machine.execRet s
  | .rc => Sys2Proof.Machine.execRc s
  | .rnc => Sys2Proof.Machine.execRnc s
  | .rz => Sys2Proof.Machine.execRz s
  | .rnz => Sys2Proof.Machine.execRnz s
  | .rp => Sys2Proof.Machine.execRp s
  | .rm => Sys2Proof.Machine.execRm s
  | .rpe => Sys2Proof.Machine.execRpe s
  | .rpo => Sys2Proof.Machine.execRpo s
  | .rst n => Sys2Proof.Machine.execRst n s
  | .inp port => Sys2Proof.Machine.execInp port s
  | .out port => Sys2Proof.Machine.execOut port s
  | .inrR dst => Sys2Proof.Machine.execInrR dst s
  | .dcrR dst => Sys2Proof.Machine.execDcrR dst s
  | .inrM => Sys2Proof.Machine.execInrM s
  | .dcrM => Sys2Proof.Machine.execDcrM s
  | .inxB => Sys2Proof.Machine.execInxB s
  | .inxD => Sys2Proof.Machine.execInxD s
  | .inxH => Sys2Proof.Machine.execInxH s
  | .dcxB => Sys2Proof.Machine.execDcxB s
  | .dcxD => Sys2Proof.Machine.execDcxD s
  | .dcxH => Sys2Proof.Machine.execDcxH s
  | .addR src => Sys2Proof.Machine.execAddR src s
  | .adcR src => Sys2Proof.Machine.execAdcR src s
  | .addM => Sys2Proof.Machine.execAddM s
  | .adcM => Sys2Proof.Machine.execAdcM s
  | .adi data => Sys2Proof.Machine.execAdi data s
  | .aci data => Sys2Proof.Machine.execAci data s
  | .dadB => Sys2Proof.Machine.execDadB s
  | .dadD => Sys2Proof.Machine.execDadD s
  | .dadH => Sys2Proof.Machine.execDadH s
  | .dadSP => Sys2Proof.Machine.execDadSP s
  | .subR src => Sys2Proof.Machine.execSubR src s
  | .sbbR src => Sys2Proof.Machine.execSbbR src s
  | .subM => Sys2Proof.Machine.execSubM s
  | .sbbM => Sys2Proof.Machine.execSbbM s
  | .sui data => Sys2Proof.Machine.execSui data s
  | .sbi data => Sys2Proof.Machine.execSbi data s
  | .anaR src => Sys2Proof.Machine.execAnaR src s
  | .xraR src => Sys2Proof.Machine.execXraR src s
  | .oraR src => Sys2Proof.Machine.execOraR src s
  | .cmpR src => Sys2Proof.Machine.execCmpR src s
  | .anaM => Sys2Proof.Machine.execAnaM s
  | .xraM => Sys2Proof.Machine.execXraM s
  | .oraM => Sys2Proof.Machine.execOraM s
  | .cmpM => Sys2Proof.Machine.execCmpM s
  | .ani data => Sys2Proof.Machine.execAni data s
  | .xri data => Sys2Proof.Machine.execXri data s
  | .ori data => Sys2Proof.Machine.execOri data s
  | .cpi data => Sys2Proof.Machine.execCpi data s
  | .rlc => Sys2Proof.Machine.execRlc s
  | .rrc => Sys2Proof.Machine.execRrc s
  | .ral => Sys2Proof.Machine.execRal s
  | .rar => Sys2Proof.Machine.execRar s
  | .cma => Sys2Proof.Machine.execCma s
  | .stc => Sys2Proof.Machine.execStc s
  | .cmc => Sys2Proof.Machine.execCmc s
  | .daa => Sys2Proof.Machine.execDaa s
  | .ei => Sys2Proof.Machine.execEi s
  | .di => Sys2Proof.Machine.execDi s
  | .nop => Sys2Proof.Machine.execNop s
  | .hlt => Sys2Proof.Machine.execHlt s
  | .rim => Sys2Proof.Machine.execRim s
  | .sim => Sys2Proof.Machine.execSim s

end Sys2Proof.Machine
end

