-- ==== Sys2Proof/Machine/Step.lean ====
section
/-! DEFINITION. One step of the machine, `CpuStep` of spec/00_scope.md R11. -/

namespace Sys2Proof.Machine

/-- `CpuStep()` (R11): the boundary, then, unless the step ends there, one instruction. -/
def step (s : State) : Host.Outcome State Fault Refusal :=
  match s.takeInputs.boundary with
  | .done r => r
  | .run t =>
    match t.fetch with
    | .ok i u => exec i u
    | .unused op => .refused (.unusedOpcode op)

/-- The state with an instruction of the opcode table stored where the next step fetches: its bits numbered as
`decodeTableWord` numbers them, every bit from `nbits` up 0 (log entry 7). -/
def State.withFetchWord (s : State) (nbits w : Nat) : State :=
  let v := w % 2 ^ nbits
  (s.placeAtPc (BitVec.ofNat 8 v) (BitVec.ofNat 8 (v / 256)) (BitVec.ofNat 8 (v / 65536))).readyToFetch

end Sys2Proof.Machine
end

