-- ==== Sys2Proof/Safety.lean ====
section
/-! DEFINITION. The terms claims are stated in: what a state keeps, what memory holds after writes, the machine's invariant, and
tables of spec/ written out apart from the meanings (T states R330, flags written R31). -/

namespace Sys2Proof.Machine

/-- Nothing happens between the CPU's bus transfers and no wait states come: no other master has the bus inside an
instruction ("a model that excludes one states HOLD is never asserted as a premise", R71) and the pins hold still. -/
abbrev State.Quiet (s : State) : Prop := s.env.xfers = []

/-- The byte at `x` after writes, the LATEST FIRST: a write lands where the platform has RAM and nowhere else (R68). -/
def afterWrites (s : State) : List (Word × Byte) → Word → Byte
  | [], x => s.byteAt x
  | (addr, v) :: earlier, x => if x = addr ∧ s.kindOf addr = .ram then v else afterWrites s earlier x

/-- Every interrupt, serial and run-state flip-flop, the pins and the platform are as before. -/
def SameControl (s t : State) : Prop :=
  t.ie = s.ie ∧ t.m55 = s.m55 ∧ t.m65 = s.m65 ∧ t.m75 = s.m75 ∧ t.r75 = s.r75 ∧ t.trapFF = s.trapFF ∧
  t.trapIE = s.trapIE ∧ t.trapRIM = s.trapRIM ∧ t.inhibit = s.inhibit ∧ t.starting = s.starting ∧
  t.sod = s.sod ∧ t.hlda = s.hlda ∧ t.halted = s.halted ∧ t.map = s.map ∧ t.anaAc = s.anaAc ∧ t.pins = s.pins

/-- The frame of an instruction that leaves every flip-flop alone: every register outside `changed` is as before; SP, PC and the
flags are the ones named; every byte of memory reads as the named writes leave it, the latest first; and the machine
cycles are those before and then the named ones. -/
structure After (s t : State) (changed : List Reg) (sp pc : Word) (f : Flags) (writes : List (Word × Byte))
    (cycles : List BusCycle) : Prop where
  regs : ∀ r, r ∉ changed → t.reg r = s.reg r
  sp : t.sp = sp
  pc : t.pc = pc
  flags : t.flags = f
  mem : ∀ x, t.byteAt x = afterWrites s writes x
  control : SameControl s t
  bus : t.bus = s.bus ++ cycles

/-- A memory read cycle without waiting. -/
def mr (addr : Word) (v : Byte) : BusCycle := ⟨.memRead, some addr, some v, 3, 0⟩

/-- A memory write cycle without waiting. -/
def mw (addr : Word) (v : Byte) : BusCycle := ⟨.memWrite, some addr, some v, 3, 0⟩

/-- S, Z and P of a result (R9, R28), with AC and CY. -/
def resultFlags (v : Byte) (ac cy : Bool) : Flags := ⟨v.getLsbD 7, decide (v = 0), ac, parity8 v, cy⟩

/-- The byte a quiet read of an address returns (R68). -/
def State.reads (s : State) (addr : Word) : Byte := (s.sample addr).1

/-- Two quiet reads, the second after the first: `MemRead(lo, 1)`, then `MemRead(hi, 1)`. -/
def State.reads2 (s : State) (lo hi : Word) : Byte × Byte := ((s.sample lo).1, ((s.sample lo).2.sample hi).1)

/-- The platform has memory, RAM or ROM, at an address. -/
def State.stored (s : State) (addr : Word) : Prop := s.kindOf addr ≠ .device

/-! ### Fetching -/

/-- The three bytes from PC on. -/
def State.bytesAtPc (s : State) : List Byte := [s.byteAt s.pc, s.byteAt (s.pc + 1), s.byteAt (s.pc + 2)]

/-- The bytes at PC decode to the instruction, and each of its bytes is memory's. -/
def State.AtInstr (s : State) (i : Instr) : Prop :=
  (∀ k, k < i.length → s.stored (s.pc + BitVec.ofNat 16 k)) ∧ ∃ rest, decode s.bytesAtPc = .ok i rest

/-- The machine cycles of a quiet fetch of an instruction of a length (R101, R331): an opcode fetch, and a memory read for each
further byte but a skipped third one. -/
def State.fetchCycles (s : State) (length : Nat) : List BusCycle :=
  let op := s.byteAt s.pc
  ⟨.opFetch, some s.pc, some op, fetchTStates op, 0⟩ ::
    ((if 2 ≤ length then [mr (s.pc + 1) (s.byteAt (s.pc + 1))] else []) ++
     (if length = 3 ∧ skipsThird op s.flags = false then [mr (s.pc + 2) (s.byteAt (s.pc + 2))] else []))

/-- The state an instruction of a length runs in after a quiet fetch: PC past it, its machine cycles recorded. -/
def State.fetched (s : State) (length : Nat) : State :=
  { s with pc := s.pc + BitVec.ofNat 16 length, bus := s.bus ++ s.fetchCycles length }

/-- The bytes of an instruction as its rule writes them out, and the T states of its opcode fetch. -/
abbrev HasForm (i : Instr) (bytes : List Byte) (fetchT : Nat) : Prop :=
  encode i = bytes ∧ bytes.head?.map fetchTStates = some fetchT

/-! ### The invariant -/

/-- What every step keeps: memory in canonical form; INHIBIT is never 1 while the CPU is halted (R279); HLDA is 1 only while
HOLD is high and RESET IN is not applied (R38, R72, R320; that it falls at once is the model's, log entry 3); until the fetch that
leaves reset the values of R46 stand, and while RESET IN is applied the two request flip-flops too (R299, R320; that no edge is
latched then is the model's, log entry 3). -/
def State.Inv (s : State) : Prop :=
  s.mem.wf = true ∧
  (s.halted = true → s.inhibit = false) ∧
  (s.hlda = true → s.pins.hold = true ∧ s.pins.resetIn = false) ∧
  (s.starting = true →
    s.pc = 0 ∧ s.ie = false ∧ s.trapRIM = false ∧ s.m55 = true ∧ s.m65 = true ∧ s.m75 = true ∧ s.sod = false ∧
    s.inhibit = false ∧ s.halted = false) ∧
  (s.pins.resetIn = true → s.starting = true ∧ s.r75 = false ∧ s.trapFF = false)

/-! ### Tables of the spec -/

/-- The five flags as names. -/
inductive Flag where
  | s | z | ac | p | cy
  deriving DecidableEq, Repr

/-- The value of a named flag. -/
def Flags.get (f : Flags) : Flag → Bool
  | .s => f.s | .z => f.z | .ac => f.ac | .p => f.p | .cy => f.cy

/-- The writers of the flags, "the complete list" of R31: which flags an instruction may write. -/
def flagsWritten : Instr → List Flag
  | .addR _ | .adcR _ | .addM | .adcM | .adi _ | .aci _ => [.s, .z, .ac, .p, .cy]
  | .subR _ | .sbbR _ | .subM | .sbbM | .sui _ | .sbi _ => [.s, .z, .ac, .p, .cy]
  | .cmpR _ | .cmpM | .cpi _ => [.s, .z, .ac, .p, .cy]
  | .inrR _ | .dcrR _ | .inrM | .dcrM => [.s, .z, .ac, .p]
  | .anaR _ | .anaM | .ani _ | .xraR _ | .xraM | .xri _ | .oraR _ | .oraM | .ori _ => [.s, .z, .ac, .p, .cy]
  | .daa | .popPSW => [.s, .z, .ac, .p, .cy]
  | .rlc | .rrc | .ral | .rar | .dadB | .dadD | .dadH | .dadSP | .stc | .cmc => [.cy]
  | _ => []

/-- The condition of a conditional jump, call or return, by its mnemonic (R105). -/
def conditionOf : Instr → Option Cond
  | .jnz _ | .cnz _ | .rnz => some .nz
  | .jz _ | .cz _ | .rz => some .z
  | .jnc _ | .cnc _ | .rnc => some .nc
  | .jc _ | .cc _ | .rc => some .c
  | .jpo _ | .cpo _ | .rpo => some .po
  | .jpe _ | .cpe _ | .rpe => some .pe
  | .jp _ | .cp _ | .rp => some .p
  | .jm _ | .cm _ | .rm => some .m
  | _ => none

/-- T states of an instruction with no wait states (R330), by whether its condition holds where it has one. -/
def tStatesOf (taken : Bool) : Instr → Nat
  | .movRR _ _ | .xchg | .inrR _ | .dcrR _ | .addR _ | .adcR _ | .subR _ | .sbbR _ | .anaR _ | .xraR _ | .oraR _
  | .cmpR _ | .rlc | .rrc | .ral | .rar | .cma | .stc | .cmc | .daa | .ei | .di | .nop | .rim | .sim => 4
  | .hlt => 5
  | .sphl | .pchl | .inxB | .inxD | .inxH | .inxSP | .dcxB | .dcxD | .dcxH | .dcxSP => 6
  | .rnz | .rz | .rnc | .rc | .rpo | .rpe | .rp | .rm => if taken then 12 else 6
  | .movMR _ | .movRM _ | .mviR _ _ | .staxB | .staxD | .ldaxB | .ldaxD | .addM | .adcM | .subM | .sbbM | .anaM | .xraM
  | .oraM | .cmpM | .adi _ | .aci _ | .sui _ | .sbi _ | .ani _ | .xri _ | .ori _ | .cpi _ => 7
  | .jnz _ | .jz _ | .jnc _ | .jc _ | .jpo _ | .jpe _ | .jp _ | .jm _ => if taken then 10 else 7
  | .cnz _ | .cz _ | .cnc _ | .cc _ | .cpo _ | .cpe _ | .cp _ | .cm _ => if taken then 18 else 9
  | .mviM _ | .lxiB _ | .lxiD _ | .lxiH _ | .lxiSP _ | .popB | .popD | .popH | .popPSW | .jmp _ | .ret | .inp _ | .out _
  | .inrM | .dcrM | .dadB | .dadD | .dadH | .dadSP => 10
  | .pushB | .pushD | .pushH | .pushPSW | .rst _ => 12
  | .sta _ | .lda _ => 13
  | .shld _ | .lhld _ | .xthl => 16
  | .call _ => 18

/-- Whether an instruction's condition holds; an instruction without one counts as taken. -/
def takenBy (i : Instr) (f : Flags) : Bool :=
  match conditionOf i with
  | some cc => condHolds f cc
  | none => true

/-- The ten first bytes that match no row of Table 6-1 (R110). -/
def unassignedOpcodes : List Byte := [0x08, 0x10, 0x18, 0x28, 0x38, 0xCB, 0xD9, 0xDD, 0xED, 0xFD]

end Sys2Proof.Machine
end

