-- ==== Sys2Proof/Certificates/Slice0/Obligations.lean ====
section
/-! DEFINITION. The statements for the provers. `State.Quiet` is the premise that nothing happens between the CPU's bus transfers
(R71); `After` is the frame: registers, SP, PC, flags, every byte of memory, every flip-flop, the machine cycles. -/

open Sys2Proof Sys2Proof.Machine

/-! ### Encoding -/

/-- Decoding an encoded well-formed instruction gives it back with the bytes after it, whatever its operands (R100 to R108). -/
def Obligations.DecodeEncodeRoundTrip : Prop :=
  ∀ (i : Instr) (rest : List Byte), i.WellFormed → decode (encode i ++ rest) = .ok i rest

/-- What decodes is well formed, and its bytes are exactly its encoding: no instruction has two encodings (R109, R115). -/
def Obligations.DecodedBytesReencode : Prop :=
  ∀ (bs : List Byte) (i : Instr) (rest : List Byte), decode bs = .ok i rest → i.WellFormed ∧ bs = encode i ++ rest

/-- Words written out from the spec's rows, one or more of every family, decode to their instructions (R108). -/
def Obligations.SpecWordsDecode : Prop :=
  decode [0b01000001] = .ok (.movRR .b .c) [] ∧ decode [0b01110111] = .ok (.movMR .a) [] ∧
  decode [0b01110110] = .ok .hlt [] ∧ decode [0b00100001, 0x34, 0x12] = .ok (.lxiH 0x1234) [] ∧
  decode [0b11110101] = .ok .pushPSW [] ∧ decode [0b11011010, 0x00, 0x3E] = .ok (.jc 0x3E00) [] ∧
  decode [0b11001100, 0x34, 0x12] = .ok (.cz 0x1234) [] ∧ decode [0b11000000] = .ok .rnz [] ∧
  decode [0b11101111] = .ok (.rst 5) [] ∧ decode [0b11010011, 0x21] = .ok (.out 0x21) [] ∧
  decode [0b00111100] = .ok (.inrR .a) [] ∧ decode [0b10001001] = .ok (.adcR .c) [] ∧
  decode [0b11010110, 0x40] = .ok (.sui 0x40) [] ∧ decode [0b10111011] = .ok (.cmpR .e) [] ∧
  decode [0b00011111] = .ok .rar [] ∧ decode [0b00100111] = .ok .daa [] ∧ decode [0b00110000] = .ok .sim []

/-- The ten unassigned first bytes, and no others, decode to nothing, and a step that fetches one is refused (R110, D8). -/
def Obligations.UnassignedBytesRefused : Prop :=
  (∀ (op : Byte) (bs : List Byte), op ∈ unassignedOpcodes → decode (op :: bs) = .unusedOpcode op) ∧
  (∀ (op b2 b3 : Byte) (bs : List Byte), op ∉ unassignedOpcodes → ∃ i rest, decode (op :: b2 :: b3 :: bs) = .ok i rest) ∧
  (∀ s t : State, s.takeInputs.boundary = .run t → t.Quiet → t.stored t.pc → t.byteAt t.pc ∈ unassignedOpcodes →
    step s = .refused (.unusedOpcode (t.byteAt t.pc)))

/-- The length of an instruction by its first byte, in the words of R113. -/
def Obligations.LengthByFirstByte : Prop :=
  ∀ op : Byte, opLength op =
    if op ∈ unassignedOpcodes then none
    else if op.toNat / 64 = 0 ∧ op.toNat % 16 = 1 then some 3
    else if op ∈ ([0x22, 0x2A, 0x32, 0x3A] : List Byte) then some 3
    else if op.toNat / 64 = 3 ∧ (op.toNat % 8 = 2 ∨ op.toNat % 8 = 4) then some 3
    else if op ∈ ([0xC3, 0xCD] : List Byte) then some 3
    else if op.toNat / 64 = 0 ∧ op.toNat % 8 = 6 then some 2
    else if op.toNat / 64 = 3 ∧ op.toNat % 8 = 6 then some 2
    else if op ∈ ([0xD3, 0xDB] : List Byte) then some 2
    else some 1

/-! ### Steps -/

/-- A step whose boundary goes on to an instruction runs the instruction the bytes at PC decode to, with PC past it (R101). -/
def Obligations.StepRunsDecodedInstruction : Prop :=
  ∀ (s t : State) (i : Instr), s.takeInputs.boundary = .run t → t.Quiet → t.AtInstr i →
    step s = exec i (t.fetched i.length)

/-- The order of events within one step (R11, D9): reset, hold, the fetch that leaves reset (R322) or the inhibit, a request, the
halt state, and only then a fetch. -/
def Obligations.BoundaryOrder : Prop :=
  ∀ s u : State, u = s.takeInputs →
    (u.pins.resetIn = true → step s = .next u) ∧
    (u.pins.resetIn = false → u.pins.hold = true → step s = .next { u with hlda := true }) ∧
    (u.pins.resetIn = false → u.pins.hold = false → u.starting = true ∨ u.inhibit = true → u.halted = false →
      u.boundary = .run { u with hlda := false, starting := false, inhibit := false }) ∧
    (u.pins.resetIn = false → u.pins.hold = false → u.starting = false → u.inhibit = false →
      (∀ q, u.selectInterrupt = some q → step s = State.accept { u with hlda := false } q) ∧
      (u.selectInterrupt = none → u.halted = true → step s = .next { u with hlda := false }) ∧
      (u.selectInterrupt = none → u.halted = false → u.boundary = .run { u with hlda := false }))

/-- After EI or DI no request is recognised at the next boundary: the next instruction is fetched, whatever is pending on the
pins then (R279, R260, R261). Reset and hold aside. -/
def Obligations.InstructionAfterEiRuns : Prop :=
  ∀ (s t u : State) (i : Instr), i = .ei ∨ i = .di → exec i s = .next t → t.halted = false → u = t.takeInputs →
    (∀ es rest, t.env.inputs = es :: rest → ∀ b, BoundaryEvent.resetIn b ∉ es) →
    u.pins.resetIn = false → u.pins.hold = false →
    u.boundary = .run { u with hlda := false, starting := false, inhibit := false }

/-- No instruction stops the machine in any state, whatever the environment of the model does meanwhile (R12, R270). That every wait
and every hold inside an instruction ends is the model's choice (log entry 6, DESIGN CHOICE, unsafe): with READY low for ever, or
a hold that is never removed, the spec has the CPU wait for ever (R73, U13). -/
def Obligations.EveryInstructionCompletes : Prop :=
  ∀ (i : Instr) (s : State), ∃ t, exec i s = .next t

/-- Every step keeps the invariant: memory in canonical form, INHIBIT 0 while halted, HLDA 1 only under HOLD and not in reset, the
values of R46 until the fetch that leaves reset, and no request flip-flop set while RESET IN is applied. Two of these are the
model's choices, not the spec's (log entry 3): that R75 and TRAPFF stay 0 while RESET IN is applied, where R273 and R274 say "at
any time" (DEDUCED), and that HLDA falls at once with HOLD (DESIGN CHOICE). -/
def Obligations.InvariantKept : Prop :=
  ∀ s t : State, s.Inv → step s = .next t → t.Inv

/-- The invariant holds right after reset. -/
def Obligations.InvariantAtReset : Prop := State.reset.Inv

/-! ### Interrupts -/

/-- When a request is valid, in the words of R272. -/
def Sys2Proof.Machine.RequestValid (s : State) : Request → Prop
  | .trap => s.trapFF = true ∧ s.pins.trap = true
  | .rst75 => s.ie = true ∧ s.m75 = false ∧ s.r75 = true
  | .rst65 => s.ie = true ∧ s.m65 = false ∧ s.pins.rst65 = true
  | .rst55 => s.ie = true ∧ s.m55 = false ∧ s.pins.rst55 = true
  | .intr => s.ie = true ∧ s.pins.intr = true

/-- Priority in Table 1: 1 is the highest (R271). -/
def Sys2Proof.Machine.priorityOf : Request → Nat
  | .trap => 1 | .rst75 => 2 | .rst65 => 3 | .rst55 => 4 | .intr => 5

/-- The request selected is the valid one of highest priority; none is selected only if none is valid; the requests not accepted
stay in their latch or on their pin, and the maskable ones wait, since acceptance clears IE (R272, R280). -/
def Obligations.InterruptPriority : Prop :=
  ∀ s : State,
    (∀ q, s.selectInterrupt = some q ↔
      RequestValid s q ∧ ∀ q', priorityOf q' < priorityOf q → ¬ RequestValid s q') ∧
    (s.selectInterrupt = none ↔ ∀ q, ¬ RequestValid s q) ∧
    (∀ q t, s.Quiet → s.accept q = .next t →
      t.pins = s.pins ∧ (q ≠ .rst75 → t.r75 = s.r75) ∧ (q ≠ .trap → t.trapFF = s.trapFF) ∧
      ∀ q', q' ≠ .trap → ¬ RequestValid t q')

/-- What entry saves and changes (R281, R285), from the boundary state `u` to `t`, for a target address and the machine cycles
before the two writes: only PC, SP, IE, HALTED, the request's own latch, for TRAP the saved enable, and the two stack bytes. -/
structure Sys2Proof.Machine.Entered (u t : State) (q : Request) (target : Word) (before : List BusCycle) : Prop where
  pc : t.pc = target
  sp : t.sp = u.sp - 2
  mem : ∀ x, t.byteAt x = afterWrites u [(u.sp - 2, loByte u.pc), (u.sp - 1, hiByte u.pc)] x
  bus : t.bus = u.bus ++ before ++ [mw (u.sp - 1) (hiByte u.pc), mw (u.sp - 2) (loByte u.pc)]
  ie : t.ie = false
  halted : t.halted = false
  regs : ∀ r, t.reg r = u.reg r
  flags : t.flags = u.flags
  masks : t.m55 = u.m55 ∧ t.m65 = u.m65 ∧ t.m75 = u.m75
  trap : if q = .trap then t.trapFF = false ∧ t.trapIE = u.ie ∧ t.trapRIM = true
    else t.trapFF = u.trapFF ∧ t.trapIE = u.trapIE ∧ t.trapRIM = u.trapRIM
  r75 : t.r75 = if q = .rst75 then false else u.r75
  rest : t.inhibit = u.inhibit ∧ t.starting = u.starting ∧ t.sod = u.sod ∧ t.pins = u.pins ∧ t.map = u.map ∧ t.anaAc = u.anaAc

/-- Acceptance of TRAP, RST 7.5, RST 6.5 or RST 5.5 by a step (R281, R285): the vector, the pushed PC, and nothing else. -/
def Obligations.RestartEntry : Prop :=
  ∀ (s u : State) (q : Request) (v : Word), u = s.takeInputs → u.pins.resetIn = false → u.pins.hold = false →
    u.starting = false → u.inhibit = false → u.selectInterrupt = some q → u.Quiet →
    (q, v) ∈ ([(.trap, 0x0024), (.rst75, 0x003C), (.rst65, 0x0034), (.rst55, 0x002C)] : List (Request × Word)) →
    ∃ t, step s = .next t ∧ Entered u t q v [⟨.idleAck, none, none, 6, 0⟩]

/-- Acceptance of INTR by a step, the device supplying RST n, or CALL and its two address bytes (R282, R283): PC is not
incremented, so the pushed address is that of the instruction that was about to be fetched. -/
def Obligations.IntrEntry : Prop :=
  ∀ (s u : State), u = s.takeInputs → u.pins.resetIn = false → u.pins.hold = false →
    u.starting = false → u.inhibit = false → u.selectInterrupt = some .intr → u.Quiet →
    (∀ n, n < 8 → u.env.intaAnswer.1 = BitVec.ofNat 8 (0xC7 + 8 * n) →
      ∃ t, step s = .next t ∧
        Entered u t .intr (BitVec.ofNat 16 (8 * n)) [⟨.intAck, some u.pc, some u.env.intaAnswer.1, 6, 0⟩]) ∧
    (∀ (lo hi : Byte) (e1 e2 e3 : Env), u.env.intaAnswer = (0xCD, e1) → e1.intaAnswer = (lo, e2) → e2.intaAnswer = (hi, e3) →
      ∃ t, step s = .next t ∧
        Entered u t .intr (pair hi lo)
          [⟨.intAck, some u.pc, some 0xCD, 6, 0⟩, ⟨.intAck, some u.pc, some lo, 3, 0⟩, ⟨.intAck, some u.pc, some hi, 3, 0⟩])

/-- An INTA byte that is neither RST n nor CALL is refused by name (R284, D18). -/
def Obligations.OtherIntaByteRefused : Prop :=
  ∀ (s u : State), u = s.takeInputs → u.pins.resetIn = false → u.pins.hold = false →
    u.starting = false → u.inhibit = false → u.selectInterrupt = some .intr → u.Quiet →
    (∀ n, n < 8 → u.env.intaAnswer.1 ≠ BitVec.ofNat 8 (0xC7 + 8 * n)) → u.env.intaAnswer.1 ≠ 0xCD →
    step s = .refused (.intaOpcode u.env.intaAnswer.1)

/-- IE gates the four maskable requests; EI alone of the instructions sets it, DI clears it, and so do RESET IN and every
acceptance, whatever the environment does meanwhile (R277). -/
def Obligations.InterruptEnableRules : Prop :=
  (∀ s : State, s.ie = false → s.selectInterrupt = none ∨ s.selectInterrupt = some .trap) ∧
  (∀ (i : Instr) (s t : State), i ≠ .ei → exec i s = .next t → t.ie = true → s.ie = true) ∧
  (∀ s t : State, exec .ei s = .next t → t.ie = true) ∧
  (∀ s t : State, exec .di s = .next t → t.ie = false) ∧
  (∀ (s t : State) (q : Request), s.accept q = .next t → t.ie = false) ∧
  (∀ s : State, s.assertReset.ie = false)

/-- The three masks change by SIM with A bit 3 set and by RESET IN, which sets them, and by nothing else; a set mask disables its
request; RIM reads them in bits 2 to 0; TRAP and INTR have no mask (R276). -/
def Obligations.MaskRules : Prop :=
  (∀ (i : Instr) (s t : State), i ≠ .sim → exec i s = .next t → t.m55 = s.m55 ∧ t.m65 = s.m65 ∧ t.m75 = s.m75) ∧
  (∀ (s t : State) (q : Request), s.accept q = .next t → t.m55 = s.m55 ∧ t.m65 = s.m65 ∧ t.m75 = s.m75) ∧
  (∀ (s : State) (e : BoundaryEvent), e ≠ .resetIn true →
    (s.boundaryEvent e).m55 = s.m55 ∧ (s.boundaryEvent e).m65 = s.m65 ∧ (s.boundaryEvent e).m75 = s.m75) ∧
  (∀ s : State, s.assertReset.m55 = true ∧ s.assertReset.m65 = true ∧ s.assertReset.m75 = true) ∧
  (∀ s t : State, exec .sim s = .next t →
    (s.a.getLsbD 3 = true → t.m75 = s.a.getLsbD 2 ∧ t.m65 = s.a.getLsbD 1 ∧ t.m55 = s.a.getLsbD 0) ∧
    (s.a.getLsbD 3 = false → t.m75 = s.m75 ∧ t.m65 = s.m65 ∧ t.m55 = s.m55)) ∧
  (∀ s : State, (s.m75 = true → s.selectInterrupt ≠ some .rst75) ∧ (s.m65 = true → s.selectInterrupt ≠ some .rst65) ∧
    (s.m55 = true → s.selectInterrupt ≠ some .rst55)) ∧
  (∀ (s : State) (x y z : Bool) (q : Request), q = .trap ∨ q = .intr →
    State.valid { s with m55 := x, m65 := y, m75 := z } q = s.valid q) ∧
  (∀ s t : State, exec .rim s = .next t →
    t.a.getLsbD 2 = s.m75 ∧ t.a.getLsbD 1 = s.m65 ∧ t.a.getLsbD 0 = s.m55)

/-- A halted CPU whose requests are not valid changes nothing; a valid one is accepted and ends the halt; with IE = 0 only TRAP
can be valid (R290). While halted INHIBIT is 0 and the fetch that leaves reset is past, as `InvariantKept` says. -/
def Obligations.HaltEndsOnlyByInterrupt : Prop :=
  ∀ s u : State, u = s.takeInputs → u.halted = true → u.starting = false → u.inhibit = false →
      u.pins.resetIn = false → u.pins.hold = false →
    (u.selectInterrupt = none → step s = .next { u with hlda := false }) ∧
    (∀ q t, u.selectInterrupt = some q → step s = .next t → t.halted = false ∧ t.sp = u.sp - 2) ∧
    (u.ie = false → u.selectInterrupt ≠ some .trap → step s = .next { u with hlda := false })

/-- The RST 7.5 flip-flop: a rising edge sets it whatever IE and M75 are, and nothing else does: no level of the pin, no other pin,
no instruction and no acceptance without an edge meanwhile; the level plays no part after that, and only the
acceptance of RST 7.5, SIM with A bit 4 and RESET IN clear it; RIM shows it in bit 6 (R274). -/
def Obligations.Rst75LatchRules : Prop :=
  (∀ s : State, s.pins.rst75 = false → s.pins.resetIn = false → (s.setPin .rst75 true).r75 = true) ∧
  (∀ (s : State) (p : Pin) (b : Bool), s.r75 = true → (s.setPin p b).r75 = true) ∧
  (∀ (s : State) (p : Pin) (b : Bool), p ≠ .rst75 ∨ b = false ∨ s.pins.rst75 = true → (s.setPin p b).r75 = s.r75) ∧
  (∀ (i : Instr) (s t : State), s.Quiet → exec i s = .next t → t.r75 = true → s.r75 = true) ∧
  (∀ (s t : State) (q : Request), s.Quiet → s.accept q = .next t → t.r75 = true → s.r75 = true) ∧
  (∀ (i : Instr) (s t : State), exec i s = .next t → s.r75 = true → (i = .sim → s.a.getLsbD 4 = false) → t.r75 = true) ∧
  (∀ s t : State, exec .sim s = .next t → s.a.getLsbD 4 = true → t.r75 = false) ∧
  (∀ (s t : State) (q : Request), q ≠ .rst75 → s.accept q = .next t → s.r75 = true → t.r75 = true) ∧
  (∀ s t : State, s.Quiet → s.accept .rst75 = .next t → t.r75 = false) ∧
  (∀ s t : State, exec .rim s = .next t → t.a.getLsbD 6 = s.r75) ∧
  (∀ s : State, s.assertReset.r75 = false)

/-- The TRAP flip-flop: a rising edge sets it, the request needs the pin high as well, only the acceptance of TRAP and RESET IN
clear it, and a pin that stays high after the acknowledge does not interrupt again (R273). -/
def Obligations.TrapLatchRules : Prop :=
  (∀ s : State, s.pins.trap = false → s.pins.resetIn = false → (s.setPin .trap true).trapFF = true) ∧
  (∀ s : State, s.trapFF = true → (s.setPin .trap false).trapFF = true ∧ (s.setPin .trap false).valid .trap = false ∧
    (s.setPin .trap true).valid .trap = true) ∧
  (∀ (i : Instr) (s t : State), exec i s = .next t → s.trapFF = true → t.trapFF = true) ∧
  (∀ (s t : State) (q : Request), q ≠ .trap → s.accept q = .next t → s.trapFF = true → t.trapFF = true) ∧
  (∀ s t : State, s.Quiet → s.accept .trap = .next t → t.trapFF = false ∧ t.pins.trap = s.pins.trap) ∧
  (∀ s : State, s.trapFF = false → s.pins.trap = true → (s.setPin .trap true).valid .trap = false) ∧
  (∀ s : State, s.assertReset.trapFF = false)

/-- The first RIM after a TRAP reports the enable saved by it, later ones the current IE; no other instruction and no other
acceptance touches the saved pair (R289, D12). -/
def Obligations.FirstRimAfterTrap : Prop :=
  (∀ s : State, s.trapRIM = true →
    ∃ t, exec .rim s = .next t ∧ t.a.getLsbD 3 = s.trapIE ∧ t.trapRIM = false ∧
      ∃ u, exec .rim t = .next u ∧ u.a.getLsbD 3 = t.ie) ∧
  (∀ (i : Instr) (s t : State), i ≠ .rim → exec i s = .next t → t.trapIE = s.trapIE ∧ t.trapRIM = s.trapRIM) ∧
  (∀ (s t : State) (q : Request), q ≠ .trap → s.accept q = .next t → t.trapIE = s.trapIE ∧ t.trapRIM = s.trapRIM) ∧
  (∀ s t : State, s.accept .trap = .next t → t.trapIE = s.ie ∧ t.trapRIM = true)

/-! ### Reset -/

/-- What reset leaves where the spec gives a value (R46). The other fields of `State.reset` are the model's choices (log 1, 2). -/
def Obligations.ResetState : Prop :=
  State.reset.pc = 0 ∧ State.reset.ie = false ∧ State.reset.hlda = false ∧ State.reset.r75 = false ∧
  State.reset.m55 = true ∧ State.reset.m65 = true ∧ State.reset.m75 = true ∧ State.reset.trapFF = false ∧
  State.reset.trapRIM = false ∧ State.reset.sod = false ∧ State.reset.halted = false ∧ State.reset.inhibit = false ∧
  State.reset.starting = true

/-- RESET IN in a run, from any state: the values of R46, memory as it was (R320, R321). Nothing is said of the registers and
flags, which take free values (D14). -/
def Obligations.ResetInEvent : Prop :=
  ∀ s t : State, t = s.assertReset →
    t.pc = 0 ∧ t.ie = false ∧ t.hlda = false ∧ t.r75 = false ∧ t.m55 = true ∧ t.m65 = true ∧ t.m75 = true ∧
    t.trapFF = false ∧ t.trapRIM = false ∧ t.sod = false ∧ t.halted = false ∧ t.inhibit = false ∧ t.starting = true ∧
    t.pins.resetIn = true ∧ (∀ x, t.byteAt x = s.byteAt x) ∧ t.map = s.map ∧ t.anaAc = s.anaAc

/-- "The cpu is held in the reset condition as long as RESET IN is applied", while another master may load memory (R320, R324);
after its release, and whatever happens on the pins then, the first fetch is at 0000H with interrupts disabled: a TRAP edge waits
for the boundary after that instruction (R322). -/
def Obligations.HeldInResetThenFetchesAtZero : Prop :=
  (∀ s : State, s.Inv → s.pins.resetIn = true → s.env.inputs = [] → step s = .next s.takeInputs ∧ s.takeInputs.pc = 0) ∧
  (∀ (s : State) (x : Word) (v : Byte), s.pins.resetIn = true →
    ∀ y, (s.event (.dma x v)).byteAt y = if y = x ∧ s.kindOf x = .ram then v else s.byteAt y) ∧
  (∀ (s u : State) (es : List Event) (rest : List (List BoundaryEvent)), s.Inv → s.pins.resetIn = true →
    s.env.inputs = (.resetIn false :: es.map .bus) :: rest → u = s.takeInputs → u.pins.hold = false →
    u.boundary = .run { u with hlda := false, starting := false, inhibit := false } ∧ u.pc = 0 ∧ u.ie = false)

/-! ### The bus -/

/-- The machine cycle chart, Table 2 (R64), all nine rows, and the status table it agrees with (R45). In each T state of a cycle that
moves a byte: the address in T1, its low half on AD0 to AD7, which carry the byte from T2 to T3, and are floating in T4 to T6, where
S1 and S0 are 1 and IO/M is 1 in an INA cycle alone (R44, R63, R65, R331); ALE is low in T1 of DAD's idle cycles alone. By R45 the status
lines are stable throughout every cycle (`TState.status`), and Table 3 agrees with it in every T state of a cycle, only OF, INA and
the acknowledge of TRAP and RST x.5 being longer than three, but on IO/M in T4 to T6 of that acknowledge, where the spec's rules differ and each table keeps its own level (log entry
13, DESIGN CHOICE). Two points are the model's, not the rules': that a byte READ is on AD0 to AD7 in the whole of T2, TWAIT and T3 (log
entry 6, DESIGN CHOICE); that an INA cycle has wait states like a read (log entry 5, DEDUCED). -/
def Obligations.ControlLinesOfCycles : Prop :=
  CycleKind.opFetch.lines = ⟨.low, .high, .high, .low, .high, .high⟩ ∧
  CycleKind.memRead.lines = ⟨.low, .high, .low, .low, .high, .high⟩ ∧
  CycleKind.memWrite.lines = ⟨.low, .low, .high, .high, .low, .high⟩ ∧
  CycleKind.ioRead.lines = ⟨.high, .high, .low, .low, .high, .high⟩ ∧
  CycleKind.ioWrite.lines = ⟨.high, .low, .high, .high, .low, .high⟩ ∧
  CycleKind.intAck.lines = ⟨.high, .high, .high, .high, .high, .low⟩ ∧
  CycleKind.idleDad.lines = ⟨.low, .high, .low, .high, .high, .high⟩ ∧
  CycleKind.idleAck.lines = ⟨.high, .high, .high, .high, .high, .high⟩ ∧
  CycleKind.idleHalt.lines = ⟨.floating, .low, .low, .floating, .floating, .high⟩ ∧
  (∀ k : CycleKind, k.transfers = false → k.lines.rd ≠ .low ∧ k.lines.wr ≠ .low ∧ k.lines.inta ≠ .low) ∧
  (∀ (c : BusCycle) (t : TState), t ∈ [.t4, .t5, .t6] →
    TState.lines c t =
      ⟨if c.kind = .intAck then .high else .low, .high, .high, .unspecified, .floating, .high, .high, .high, .low⟩) ∧
  (∀ c : BusCycle, (∀ t ∈ c.tStates, TState.status c t = ⟨c.kind.lines.ioM, c.kind.lines.s1, c.kind.lines.s0⟩) ∧
    TState.status c .tHalt = ⟨.floating, .low, .low⟩ ∧
    ∀ t ∈ [TState.tHold, .tReset], TState.status c t = ⟨.floating, .unspecified, .unspecified⟩) ∧
  (∀ (c : BusCycle) (t : TState), c.base ≤ 3 ∨ c.kind ∈ [.opFetch, .intAck, .idleAck] → t ∈ c.tStates →
    (TState.lines c t).s1 = (TState.status c t).s1 ∧ (TState.lines c t).s0 = (TState.status c t).s0 ∧
    (c.kind ≠ .idleAck ∨ t ∉ [.t4, .t5, .t6] → (TState.lines c t).ioM = (TState.status c t).ioM)) ∧
  (∀ c : BusCycle, (TState.lines c .t1).ale = if c.kind = .idleDad then .low else .high) ∧
  (∀ (k : CycleKind) (x : Word) (v : Byte) (n w : Nat), k.transfers = true → 3 ≤ n →
    let c : BusCycle := ⟨k, some x, some v, n, w⟩
    let l := k.lines
    let t4 : BusLines := ⟨if k = .intAck then .high else .low, .high, .high, .unspecified, .floating, .high, .high, .high, .low⟩
    c.waveform =
      ⟨l.ioM, l.s1, l.s0, .address (hiByte x), .address (loByte x), .high, .high, .high, .high⟩ ::
      (List.replicate (2 + w) ⟨l.ioM, l.s1, l.s0, .address (hiByte x), .data v, l.rd, l.wr, l.inta, .low⟩ ++
       List.replicate (min (n - 3) 3) t4))

/-- The T states of every instruction, fetch included, with no wait states (R330, R331): the record of the step's machine cycles
adds up to the table's count. -/
def Obligations.TStatesPerInstruction : Prop :=
  ∀ (s t v : State) (i : Instr), s.takeInputs.boundary = .run t → t.Quiet → t.AtInstr i → step s = .next v →
    busTime v.bus = tStatesOf (takenBy i t.flags) i

/-- A conditional jump or call whose condition is false makes an opcode fetch and ONE memory read: its third byte is skipped, not
read, and a device there sees nothing (R80 (a), R331). Nothing else happens: PC goes to the next instruction. -/
def Obligations.FalseConditionSkipsThirdByte : Prop :=
  ∀ (s t : State) (op : Byte) (holds : Bool), s.takeInputs.boundary = .run t → t.Quiet →
    t.stored t.pc → t.stored (t.pc + 1) → op = t.byteAt t.pc → (op, holds) ∈
      [((0xDA : Byte), t.flags.cy), (0xD2, !t.flags.cy), (0xCA, t.flags.z), (0xC2, !t.flags.z), (0xF2, !t.flags.s),
       (0xFA, t.flags.s), (0xEA, t.flags.p), (0xE2, !t.flags.p), (0xDC, t.flags.cy), (0xD4, !t.flags.cy),
       (0xCC, t.flags.z), (0xC4, !t.flags.z), (0xF4, !t.flags.s), (0xFC, t.flags.s), (0xEC, t.flags.p),
       (0xE4, !t.flags.p)] → holds = false →
    step s = .next { t with
      pc := t.pc + 3
      bus := t.bus ++ [⟨.opFetch, some t.pc, some op, if op.toNat % 8 = 2 then 4 else 6, 0⟩,
        mr (t.pc + 1) (t.byteAt (t.pc + 1))] }

/-- The last machine cycle recorded, with `n` wait states. -/
def Sys2Proof.Machine.withWaits (s : State) (n : Nat) : State :=
  { s with bus := s.bus.dropLast ++ (s.bus.getLast?.map fun c => { c with waits := n }).toList }

/-- READY low stretches a read or write cycle by TWAIT states between T2 and T3, one T each, and "changes nothing else" (R73): the
byte read and the WHOLE next state are those of the transfer that does not wait, but for the number recorded, whatever happens
before the transfer. That an INA cycle takes longer in the same way is the model's (log entry 5). -/
def Obligations.WaitStatesOnlyStretch : Prop :=
  (∀ (s t : State) (es : List Event) (rest : List Xfer) (n : Nat),
    s.env.xfers = ⟨es, 0⟩ :: rest → t = { s with env := { s.env with xfers := ⟨es, n⟩ :: rest } } →
    (∀ x, (t.memRead x).1 = (s.memRead x).1 ∧ (t.memRead x).2 = withWaits (s.memRead x).2 n) ∧
    (t.opFetch.1 = s.opFetch.1 ∧ t.opFetch.2 = withWaits s.opFetch.2 n) ∧
    (∀ x v, t.memWrite x v = withWaits (s.memWrite x v) n) ∧
    (∀ port, (t.ioRead port).1 = (s.ioRead port).1 ∧ (t.ioRead port).2 = withWaits (s.ioRead port).2 n) ∧
    (∀ port v, t.ioWrite port v = withWaits (s.ioWrite port v) n)) ∧
  (∀ (k : CycleKind) (x : Option Word) (v : Option Byte) (b n : Nat), k.transfers = true →
    BusCycle.time ⟨k, x, v, b, n⟩ = BusCycle.time ⟨k, x, v, b, 0⟩ + n ∧
    (⟨k, x, v, b, n⟩ : BusCycle).tStates =
      [.t1, .t2] ++ List.replicate n .tWait ++ (⟨k, x, v, b, 0⟩ : BusCycle).tStates.drop 2)

/-! ### Arithmetic -/

/-- The helpers of R9: `add8` and `sub8` give the exact sum and difference modulo 256, CY is the carry or the borrow, AC the carry
out of bit 3 or the absence of a borrow from bit 4; `parity8` counts ones; `SetSZP` reads the result. -/
def Obligations.ArithmeticHelpersExact : Prop :=
  (∀ (x y : Byte) (c : Bool),
    (add8 x y c).res.toNat + 256 * (add8 x y c).cy.toNat = x.toNat + y.toNat + c.toNat ∧
    (add8 x y c).ac = decide (16 ≤ x.toNat % 16 + y.toNat % 16 + c.toNat)) ∧
  (∀ (x y : Byte) (c : Bool),
    (sub8 x y c).res = x - y - BitVec.ofNat 8 c.toNat ∧
    (sub8 x y c).cy = decide (x.toNat < y.toNat + c.toNat) ∧
    (sub8 x y c).ac = decide (y.toNat % 16 + c.toNat ≤ x.toNat % 16)) ∧
  (∀ v : Byte, parity8 v = decide (((List.range 8).filter fun k => v.getLsbD k).length % 2 = 0)) ∧
  (∀ (f : Flags) (v : Byte), f.setSZP v = ⟨v.getLsbD 7, decide (v = 0), f.ac, parity8 v, f.cy⟩)

/-- A packed BCD byte's number. -/
def Sys2Proof.Machine.bcdValue (v : Byte) : Nat := 10 * (v.toNat / 16) + v.toNat % 16

/-- Both digits are decimal. -/
def Sys2Proof.Machine.IsBcd (v : Byte) : Prop := v.toNat / 16 ≤ 9 ∧ v.toNat % 16 ≤ 9

/-- After the addition of two packed BCD bytes, with or without a carry in, DAA gives the packed BCD sum and sets CY to the
decimal carry (R254). -/
def Obligations.DaaAdjustsDecimalSums : Prop :=
  ∀ (x y : Byte) (c : Bool), IsBcd x → IsBcd y →
    let r := add8 x y c
    let d := daa8 r.res r.ac r.cy
    IsBcd d.res ∧ bcdValue d.res + 100 * d.cy.toNat = bcdValue x + bcdValue y + c.toNat

/-! ### Memory -/

/-- A quiet write and the quiet read after it: RAM returns the byte written, ROM and every other address keep theirs, a device's
read takes the environment's answer and writing it stores nothing (R68, D6). -/
def Obligations.MemoryReadsAndWrites : Prop :=
  ∀ (s : State) (x : Word) (v : Byte), s.Quiet →
    (∀ y, (s.memWrite x v).byteAt y = if y = x ∧ s.kindOf x = .ram then v else s.byteAt y) ∧
    (s.kindOf x = .ram → ((s.memWrite x v).memRead x).1 = v) ∧
    (s.kindOf x = .rom → ((s.memWrite x v).memRead x).1 = s.byteAt x) ∧
    (∀ w rest, s.kindOf x = .device → s.env.memIn = w :: rest → ((s.memWrite x v).memRead x).1 = w)

/-- INR M is not atomic against another master (R70, R76): a byte written by it between the read and the write is lost. -/
def Obligations.IncrementLosesOtherMastersWrite : Prop :=
  ∀ (s : State) (w : Byte) (rest : List Xfer), s.kindOf s.hl = .ram → s.pins.resetIn = false →
    s.env.xfers = ⟨[], 0⟩ :: ⟨[.pin .hold true, .dma s.hl w, .pin .hold false], 0⟩ :: rest →
    ∃ t, exec .inrM s = .next t ∧ t.byteAt s.hl = s.byteAt s.hl + 1 ∧
      ((s.readM.2.gap.1).byteAt s.hl = w)

/-- A store is seen by every later instruction fetch, the next one included (R78). -/
def Obligations.StoreSeenByNextFetch : Prop :=
  ∀ (s : State) (addr : Word), s.Quiet → s.kindOf addr = .ram →
    ∃ t, exec (.sta addr) s = .next t ∧ (t.setPc addr).opFetch.1 = s.a

/-! ### Move, load, store -/

/-- MOV r1,r2 and MVI r (R130, R133): the destination takes the value, nothing else changes. -/
def Obligations.MoveToRegister : Prop :=
  ∀ s : State,
    (∀ dst src, HasForm (.movRR dst src) [0x40 + 8 * dst.code + src.code] 4 ∧
      ∃ t, exec (.movRR dst src) s = .next t ∧ t.reg dst = s.reg src ∧ After s t [dst] s.sp s.pc s.flags [] []) ∧
    (∀ dst data, HasForm (.mviR dst data) [0x06 + 8 * dst.code, data] 4 ∧
      ∃ t, exec (.mviR dst data) s = .next t ∧ t.reg dst = data ∧ After s t [dst] s.sp s.pc s.flags [] [])

/-- MOV M,r, MOV r,M and MVI M (R131, R132, R134), the address being HL before any register is written. -/
def Obligations.MoveToAndFromMemory : Prop :=
  ∀ s : State, s.Quiet →
    (∀ src, HasForm (.movMR src) [0x70 + src.code] 4 ∧ ∃ t, exec (.movMR src) s = .next t ∧
      After s t [] s.sp s.pc s.flags [(pair s.h s.l, s.reg src)] [mw (pair s.h s.l) (s.reg src)]) ∧
    (∀ dst, HasForm (.movRM dst) [0x46 + 8 * dst.code] 4 ∧
      ∃ t, exec (.movRM dst) s = .next t ∧ t.reg dst = s.reads (pair s.h s.l) ∧
      After s t [dst] s.sp s.pc s.flags [] [mr (pair s.h s.l) (s.reads (pair s.h s.l))]) ∧
    (∀ data, HasForm (.mviM data) [0x36, data] 4 ∧ ∃ t, exec (.mviM data) s = .next t ∧
      After s t [] s.sp s.pc s.flags [(pair s.h s.l, data)] [mw (pair s.h s.l) data])

/-- LXI B, D, H and SP (R135, R157): byte 3 to the first-named register, byte 2 to the second. -/
def Obligations.LoadImmediatePairs : Prop :=
  ∀ (s : State) (hi lo : Byte),
    (HasForm (.lxiB (pair hi lo)) [0x01, lo, hi] 4 ∧
      ∃ t, exec (.lxiB (pair hi lo)) s = .next t ∧ t.b = hi ∧ t.c = lo ∧ After s t [.b, .c] s.sp s.pc s.flags [] []) ∧
    (HasForm (.lxiD (pair hi lo)) [0x11, lo, hi] 4 ∧
      ∃ t, exec (.lxiD (pair hi lo)) s = .next t ∧ t.d = hi ∧ t.e = lo ∧ After s t [.d, .e] s.sp s.pc s.flags [] []) ∧
    (HasForm (.lxiH (pair hi lo)) [0x21, lo, hi] 4 ∧
      ∃ t, exec (.lxiH (pair hi lo)) s = .next t ∧ t.h = hi ∧ t.l = lo ∧ After s t [.h, .l] s.sp s.pc s.flags [] []) ∧
    (HasForm (.lxiSP (pair hi lo)) [0x31, lo, hi] 4 ∧
      ∃ t, exec (.lxiSP (pair hi lo)) s = .next t ∧ After s t [] (pair hi lo) s.pc s.flags [] [])

/-- STAX, LDAX, STA, LDA (R136 to R139). -/
def Obligations.AccumulatorLoadsAndStores : Prop :=
  ∀ s : State, s.Quiet →
    (∀ (i : Instr) (x : Word) (op : Byte), (i, x, op) ∈
        [(Instr.staxB, pair s.b s.c, (0x02 : Byte)), (Instr.staxD, pair s.d s.e, 0x12)] →
      HasForm i [op] 4 ∧ ∃ t, exec i s = .next t ∧ After s t [] s.sp s.pc s.flags [(x, s.a)] [mw x s.a]) ∧
    (∀ addr, HasForm (.sta addr) [0x32, loByte addr, hiByte addr] 4 ∧
      ∃ t, exec (.sta addr) s = .next t ∧ After s t [] s.sp s.pc s.flags [(addr, s.a)] [mw addr s.a]) ∧
    (∀ (i : Instr) (x : Word) (op : Byte), (i, x, op) ∈
        [(Instr.ldaxB, pair s.b s.c, (0x0A : Byte)), (Instr.ldaxD, pair s.d s.e, 0x1A)] →
      HasForm i [op] 4 ∧
        ∃ t, exec i s = .next t ∧ t.a = s.reads x ∧ After s t [.a] s.sp s.pc s.flags [] [mr x (s.reads x)]) ∧
    (∀ addr, HasForm (.lda addr) [0x3A, loByte addr, hiByte addr] 4 ∧
      ∃ t, exec (.lda addr) s = .next t ∧ t.a = s.reads addr ∧
      After s t [.a] s.sp s.pc s.flags [] [mr addr (s.reads addr)])

/-- SHLD and LHLD (R140, R141): L at the address, H at the next, modulo 65536. -/
def Obligations.HlLoadsAndStores : Prop :=
  ∀ (s : State) (addr : Word), s.Quiet →
    (HasForm (.shld addr) [0x22, loByte addr, hiByte addr] 4 ∧ ∃ t, exec (.shld addr) s = .next t ∧
      After s t [] s.sp s.pc s.flags [(addr + 1, s.h), (addr, s.l)] [mw addr s.l, mw (addr + 1) s.h]) ∧
    (HasForm (.lhld addr) [0x2A, loByte addr, hiByte addr] 4 ∧
      ∃ t, exec (.lhld addr) s = .next t ∧ t.l = (s.reads2 addr (addr + 1)).1 ∧ t.h = (s.reads2 addr (addr + 1)).2 ∧
      After s t [.h, .l] s.sp s.pc s.flags []
        [mr addr (s.reads2 addr (addr + 1)).1, mr (addr + 1) (s.reads2 addr (addr + 1)).2])

/-- XCHG and SPHL (R142, R156). -/
def Obligations.ExchangeAndSphl : Prop :=
  ∀ s : State,
    (HasForm .xchg [0xEB] 4 ∧ ∃ t, exec .xchg s = .next t ∧ t.h = s.d ∧ t.l = s.e ∧ t.d = s.h ∧ t.e = s.l ∧
      After s t [.d, .e, .h, .l] s.sp s.pc s.flags [] []) ∧
    (HasForm .sphl [0xF9] 6 ∧ ∃ t, exec .sphl s = .next t ∧ After s t [] (pair s.h s.l) s.pc s.flags [] [])

/-! ### Stack -/

/-- PUSH B, D, H and PUSH PSW (R151, R152): the high byte at SP - 1, then the low byte at SP - 2. Bits 5, 3 and 1 of the pushed flag
byte are not constrained. -/
def Obligations.Pushes : Prop :=
  ∀ s : State, s.Quiet →
    (∀ (i : Instr) (op hi lo : Byte), (i, op, hi, lo) ∈
        [(Instr.pushB, 0xC5, s.b, s.c), (Instr.pushD, 0xD5, s.d, s.e), (Instr.pushH, 0xE5, s.h, s.l)] →
      HasForm i [op] 6 ∧ ∃ t, exec i s = .next t ∧
        After s t [] (s.sp - 2) s.pc s.flags [(s.sp - 2, lo), (s.sp - 1, hi)] [mw (s.sp - 1) hi, mw (s.sp - 2) lo]) ∧
    (HasForm .pushPSW [0xF5] 6 ∧ ∃ t fb, exec .pushPSW s = .next t ∧
      fb.getLsbD 7 = s.flags.s ∧ fb.getLsbD 6 = s.flags.z ∧ fb.getLsbD 4 = s.flags.ac ∧ fb.getLsbD 2 = s.flags.p ∧
      fb.getLsbD 0 = s.flags.cy ∧
      After s t [] (s.sp - 2) s.pc s.flags [(s.sp - 2, fb), (s.sp - 1, s.a)] [mw (s.sp - 1) s.a, mw (s.sp - 2) fb])

/-- POP B, D, H and POP PSW (R153, R154): the low byte from SP, the high byte from SP + 1; POP PSW writes A and all five flags. -/
def Obligations.Pops : Prop :=
  ∀ (s : State) (lo hi : Byte), s.Quiet → (lo, hi) = s.reads2 s.sp (s.sp + 1) →
    (HasForm .popB [0xC1] 4 ∧ ∃ t, exec .popB s = .next t ∧ t.b = hi ∧ t.c = lo ∧
      After s t [.b, .c] (s.sp + 2) s.pc s.flags [] [mr s.sp lo, mr (s.sp + 1) hi]) ∧
    (HasForm .popD [0xD1] 4 ∧ ∃ t, exec .popD s = .next t ∧ t.d = hi ∧ t.e = lo ∧
      After s t [.d, .e] (s.sp + 2) s.pc s.flags [] [mr s.sp lo, mr (s.sp + 1) hi]) ∧
    (HasForm .popH [0xE1] 4 ∧ ∃ t, exec .popH s = .next t ∧ t.h = hi ∧ t.l = lo ∧
      After s t [.h, .l] (s.sp + 2) s.pc s.flags [] [mr s.sp lo, mr (s.sp + 1) hi]) ∧
    (HasForm .popPSW [0xF1] 4 ∧ ∃ t, exec .popPSW s = .next t ∧ t.a = hi ∧
      After s t [.a] (s.sp + 2) s.pc ⟨lo.getLsbD 7, lo.getLsbD 6, lo.getLsbD 4, lo.getLsbD 2, lo.getLsbD 0⟩ []
        [mr s.sp lo, mr (s.sp + 1) hi])

/-- XTHL (R155): HL and the two bytes at SP are exchanged, SP is unchanged. -/
def Obligations.ExchangeTopOfStack : Prop :=
  ∀ (s : State) (lo hi : Byte), s.Quiet → (lo, hi) = s.reads2 s.sp (s.sp + 1) →
    HasForm .xthl [0xE3] 4 ∧ ∃ t, exec .xthl s = .next t ∧ t.h = hi ∧ t.l = lo ∧
      After s t [.h, .l] s.sp s.pc s.flags [(s.sp, s.l), (s.sp + 1, s.h)]
        [mr s.sp lo, mr (s.sp + 1) hi, mw (s.sp + 1) s.h, mw s.sp s.l]

/-- INX and DCX of B, D, H and SP (R209, R210, R158, R159): modulo 65536, no flag. -/
def Obligations.PairIncrements : Prop :=
  ∀ s : State,
    (∀ (i : Instr) (op : Byte) (delta : Word), (i, op, delta) ∈ [(Instr.inxB, (0x03 : Byte), (1 : Word)), (.dcxB, 0x0B, -1)] →
      HasForm i [op] 6 ∧
        ∃ t, exec i s = .next t ∧ pair t.b t.c = pair s.b s.c + delta ∧ After s t [.b, .c] s.sp s.pc s.flags [] []) ∧
    (∀ (i : Instr) (op : Byte) (delta : Word), (i, op, delta) ∈ [(Instr.inxD, (0x13 : Byte), (1 : Word)), (.dcxD, 0x1B, -1)] →
      HasForm i [op] 6 ∧
        ∃ t, exec i s = .next t ∧ pair t.d t.e = pair s.d s.e + delta ∧ After s t [.d, .e] s.sp s.pc s.flags [] []) ∧
    (∀ (i : Instr) (op : Byte) (delta : Word), (i, op, delta) ∈ [(Instr.inxH, (0x23 : Byte), (1 : Word)), (.dcxH, 0x2B, -1)] →
      HasForm i [op] 6 ∧
        ∃ t, exec i s = .next t ∧ pair t.h t.l = pair s.h s.l + delta ∧ After s t [.h, .l] s.sp s.pc s.flags [] []) ∧
    (HasForm .inxSP [0x33] 6 ∧ ∃ t, exec .inxSP s = .next t ∧ After s t [] (s.sp + 1) s.pc s.flags [] []) ∧
    (HasForm .dcxSP [0x3B] 6 ∧ ∃ t, exec .dcxSP s = .next t ∧ After s t [] (s.sp - 1) s.pc s.flags [] [])

/-! ### Jumps, calls, returns, restarts -/

/-- JMP, PCHL and the eight conditional jumps (R166 to R175): the target if the condition holds, else the next instruction. -/
def Obligations.Jumps : Prop :=
  ∀ (s : State) (addr : Word),
    (HasForm (.jmp addr) [0xC3, loByte addr, hiByte addr] 4 ∧
      ∃ t, exec (.jmp addr) s = .next t ∧ After s t [] s.sp addr s.flags [] []) ∧
    (HasForm .pchl [0xE9] 6 ∧ ∃ t, exec .pchl s = .next t ∧ After s t [] s.sp (pair s.h s.l) s.flags [] []) ∧
    (∀ (i : Instr) (op : Byte) (taken : Bool), (i, op, taken) ∈
        [(Instr.jc addr, (0xDA : Byte), s.flags.cy), (.jnc addr, 0xD2, !s.flags.cy), (.jz addr, 0xCA, s.flags.z),
         (.jnz addr, 0xC2, !s.flags.z), (.jp addr, 0xF2, !s.flags.s), (.jm addr, 0xFA, s.flags.s),
         (.jpe addr, 0xEA, s.flags.p), (.jpo addr, 0xE2, !s.flags.p)] →
      HasForm i [op, loByte addr, hiByte addr] 4 ∧ skipsThird op s.flags = !taken ∧
        ∃ t, exec i s = .next t ∧ After s t [] s.sp (if taken then addr else s.pc) s.flags [] [])

/-- CALL and the eight conditional calls (R176 to R184): taken, PC is pushed, high byte first, and control goes to the target; not
taken, nothing changes. -/
def Obligations.Calls : Prop :=
  ∀ (s : State) (addr : Word) (i : Instr) (op : Byte) (taken : Bool), s.Quiet → (i, op, taken) ∈
      [(Instr.call addr, (0xCD : Byte), true), (.cc addr, 0xDC, s.flags.cy), (.cnc addr, 0xD4, !s.flags.cy),
       (.cz addr, 0xCC, s.flags.z), (.cnz addr, 0xC4, !s.flags.z), (.cp addr, 0xF4, !s.flags.s),
       (.cm addr, 0xFC, s.flags.s), (.cpe addr, 0xEC, s.flags.p), (.cpo addr, 0xE4, !s.flags.p)] →
    HasForm i [op, loByte addr, hiByte addr] 6 ∧ skipsThird op s.flags = !taken ∧ ∃ t, exec i s = .next t ∧
      if taken then
        After s t [] (s.sp - 2) addr s.flags [(s.sp - 2, loByte s.pc), (s.sp - 1, hiByte s.pc)]
          [mw (s.sp - 1) (hiByte s.pc), mw (s.sp - 2) (loByte s.pc)]
      else After s t [] s.sp s.pc s.flags [] []

/-- RET and the eight conditional returns (R185 to R193): taken, PC is popped, low byte first; not taken, nothing changes. -/
def Obligations.Returns : Prop :=
  ∀ (s : State) (lo hi : Byte) (i : Instr) (op : Byte) (fetchT : Nat) (taken : Bool), s.Quiet →
    (lo, hi) = s.reads2 s.sp (s.sp + 1) → (i, op, fetchT, taken) ∈
      [(Instr.ret, (0xC9 : Byte), 4, true), (.rc, 0xD8, 6, s.flags.cy), (.rnc, 0xD0, 6, !s.flags.cy),
       (.rz, 0xC8, 6, s.flags.z), (.rnz, 0xC0, 6, !s.flags.z), (.rp, 0xF0, 6, !s.flags.s), (.rm, 0xF8, 6, s.flags.s),
       (.rpe, 0xE8, 6, s.flags.p), (.rpo, 0xE0, 6, !s.flags.p)] →
    HasForm i [op] fetchT ∧ ∃ t, exec i s = .next t ∧
      if taken then After s t [] (s.sp + 2) (pair hi lo) s.flags [] [mr s.sp lo, mr (s.sp + 1) hi]
      else After s t [] s.sp s.pc s.flags [] []

/-- RST n (R194): PC is pushed and control goes to 8 n; IE, the masks and the registers keep their values. -/
def Obligations.Restarts : Prop :=
  ∀ (s : State) (n : Nat), s.Quiet → n < 8 →
    HasForm (.rst n) [BitVec.ofNat 8 (0xC7 + 8 * n)] 6 ∧ ∃ t, exec (.rst n) s = .next t ∧ t.pc.toNat = 8 * n ∧
      After s t [] (s.sp - 2) t.pc s.flags [(s.sp - 2, loByte s.pc), (s.sp - 1, hiByte s.pc)]
        [mw (s.sp - 1) (hiByte s.pc), mw (s.sp - 2) (loByte s.pc)]

/-! ### Input and output -/

/-- IN and OUT (R200, R201): one I/O cycle with the port on both halves of the address; A takes the device's answer, or is sent. -/
def Obligations.InputAndOutput : Prop :=
  ∀ (s : State) (port : Byte), s.Quiet →
    (HasForm (.inp port) [0xDB, port] 4 ∧
      ∃ t v, exec (.inp port) s = .next t ∧ t.a = v ∧ (∀ w rest, s.env.ioIn = w :: rest → v = w) ∧
      After s t [.a] s.sp s.pc s.flags [] [⟨.ioRead, some (pair port port), some v, 3, 0⟩]) ∧
    (HasForm (.out port) [0xD3, port] 4 ∧ ∃ t, exec (.out port) s = .next t ∧
      After s t [] s.sp s.pc s.flags [] [⟨.ioWrite, some (pair port port), some s.a, 3, 0⟩])

/-! ### Increment and decrement -/

/-- INR and DCR of a register and of memory (R205 to R208): S, Z, P from the result, CY unchanged, AC 1 exactly when the low half
was FH for INR and when it was not 0H for DCR. -/
def Obligations.IncrementsAndDecrements : Prop :=
  ∀ s : State,
    (∀ dst, HasForm (.inrR dst) [0x04 + 8 * dst.code] 4 ∧
      ∃ t, exec (.inrR dst) s = .next t ∧ t.reg dst = s.reg dst + 1 ∧
      After s t [dst] s.sp s.pc (resultFlags (s.reg dst + 1) (decide ((s.reg dst).toNat % 16 = 15)) s.flags.cy) [] []) ∧
    (∀ dst, HasForm (.dcrR dst) [0x05 + 8 * dst.code] 4 ∧
      ∃ t, exec (.dcrR dst) s = .next t ∧ t.reg dst = s.reg dst - 1 ∧
      After s t [dst] s.sp s.pc (resultFlags (s.reg dst - 1) (decide ((s.reg dst).toNat % 16 ≠ 0)) s.flags.cy) [] []) ∧
    (∀ (x : Word) (v : Byte), s.Quiet → x = pair s.h s.l → v = s.reads x →
      (HasForm .inrM [0x34] 4 ∧ ∃ t, exec .inrM s = .next t ∧
        After s t [] s.sp s.pc (resultFlags (v + 1) (decide (v.toNat % 16 = 15)) s.flags.cy) [(x, v + 1)]
          [mr x v, mw x (v + 1)]) ∧
      (HasForm .dcrM [0x35] 4 ∧ ∃ t, exec .dcrM s = .next t ∧
        After s t [] s.sp s.pc (resultFlags (v - 1) (decide (v.toNat % 16 ≠ 0)) s.flags.cy) [(x, v - 1)]
          [mr x v, mw x (v - 1)]))

/-! ### Add and subtract -/

/-- An instruction adds an operand and a carry to A and writes all five flags (R9, R215). -/
def Sys2Proof.Machine.AddsToA (i : Instr) (bytes : List Byte) (s : State) (v : Byte) (cin : Bool)
    (cycles : List BusCycle) : Prop :=
  HasForm i bytes 4 ∧ ∃ t, exec i s = .next t ∧ t.a = BitVec.ofNat 8 (s.a.toNat + v.toNat + cin.toNat) ∧
    After s t [.a] s.sp s.pc
      (resultFlags t.a (decide (16 ≤ s.a.toNat % 16 + v.toNat % 16 + cin.toNat))
        (decide (256 ≤ s.a.toNat + v.toNat + cin.toNat))) [] cycles

/-- ADD, ADC of a register, of memory and immediate (R215 to R220). -/
def Obligations.Additions : Prop :=
  ∀ s : State,
    (∀ src, AddsToA (.addR src) [0x80 + src.code] s (s.reg src) false [] ∧
      AddsToA (.adcR src) [0x88 + src.code] s (s.reg src) s.flags.cy []) ∧
    (∀ data, AddsToA (.adi data) [0xC6, data] s data false [] ∧ AddsToA (.aci data) [0xCE, data] s data s.flags.cy []) ∧
    (∀ (x : Word) (v : Byte), s.Quiet → x = pair s.h s.l → v = s.reads x →
      AddsToA .addM [0x86] s v false [mr x v] ∧ AddsToA .adcM [0x8E] s v s.flags.cy [mr x v])

/-- The flags of `x - y - bin` (R9): S, Z, P of the result, AC the absence of a borrow from bit 4, CY the borrow. -/
def Sys2Proof.Machine.differenceFlags (x y : Byte) (bin : Bool) : Flags :=
  resultFlags (x - y - BitVec.ofNat 8 bin.toNat) (decide (y.toNat % 16 + bin.toNat ≤ x.toNat % 16))
    (decide (x.toNat < y.toNat + bin.toNat))

/-- An instruction subtracts an operand and a borrow from A and writes all five flags (R9, R222). -/
def Sys2Proof.Machine.SubtractsFromA (i : Instr) (bytes : List Byte) (s : State) (v : Byte) (bin : Bool)
    (cycles : List BusCycle) : Prop :=
  HasForm i bytes 4 ∧ ∃ t, exec i s = .next t ∧ t.a = s.a - v - BitVec.ofNat 8 bin.toNat ∧
    After s t [.a] s.sp s.pc (differenceFlags s.a v bin) [] cycles

/-- SUB, SBB of a register, of memory and immediate (R222 to R227). -/
def Obligations.Subtractions : Prop :=
  ∀ s : State,
    (∀ src, SubtractsFromA (.subR src) [0x90 + src.code] s (s.reg src) false [] ∧
      SubtractsFromA (.sbbR src) [0x98 + src.code] s (s.reg src) s.flags.cy []) ∧
    (∀ data, SubtractsFromA (.sui data) [0xD6, data] s data false [] ∧
      SubtractsFromA (.sbi data) [0xDE, data] s data s.flags.cy []) ∧
    (∀ (x : Word) (v : Byte), s.Quiet → x = pair s.h s.l → v = s.reads x →
      SubtractsFromA .subM [0x96] s v false [mr x v] ∧ SubtractsFromA .sbbM [0x9E] s v s.flags.cy [mr x v])

/-- DAD B, D, H, SP (R221): HL takes the sum modulo 65536, CY its carry, no other flag changes; two bus idle cycles. -/
def Obligations.DoubleAdds : Prop :=
  ∀ (s : State) (i : Instr) (op : Byte) (w : Word), (i, op, w) ∈
      [(Instr.dadB, (0x09 : Byte), pair s.b s.c), (.dadD, 0x19, pair s.d s.e), (.dadH, 0x29, pair s.h s.l),
       (.dadSP, 0x39, s.sp)] →
    HasForm i [op] 4 ∧ ∃ t, exec i s = .next t ∧ (pair t.h t.l).toNat = ((pair s.h s.l).toNat + w.toNat) % 65536 ∧
      After s t [.h, .l] s.sp s.pc { s.flags with cy := decide (65536 ≤ (pair s.h s.l).toNat + w.toNat) } []
        [⟨.idleDad, none, none, 3, 0⟩, ⟨.idleDad, none, none, 3, 0⟩]

/-! ### Logical, rotate, specials -/

/-- A logical instruction: the result to A, S, Z, P from it, AC as named, CY 0 (R235 to R237). -/
def Sys2Proof.Machine.LogicToA (i : Instr) (bytes : List Byte) (s : State) (v : Byte) (ac : Bool)
    (cycles : List BusCycle) : Prop :=
  HasForm i bytes 4 ∧ ∃ t, exec i s = .next t ∧ t.a = v ∧ After s t [.a] s.sp s.pc (resultFlags v ac false) [] cycles

/-- AC after AND by the parameter ANA_AC_MODE: 1 for `one`, the spec's rule, and the OR of bit 3 of the operands for `or_bit3`
(R235, D15). -/
def Sys2Proof.Machine.acAfterAnd (s : State) (v : Byte) : Bool :=
  match s.anaAc with
  | .one => true
  | .orBit3 => s.a.getLsbD 3 || v.getLsbD 3

/-- ANA, XRA, ORA of a register, of memory and immediate (R235 to R237, R239 to R241, R243 to R245). -/
def Obligations.LogicalOperations : Prop :=
  ∀ s : State,
    (∀ src, LogicToA (.anaR src) [0xA0 + src.code] s (s.a &&& s.reg src) (acAfterAnd s (s.reg src)) [] ∧
      LogicToA (.xraR src) [0xA8 + src.code] s (s.a ^^^ s.reg src) false [] ∧
      LogicToA (.oraR src) [0xB0 + src.code] s (s.a ||| s.reg src) false []) ∧
    (∀ data, LogicToA (.ani data) [0xE6, data] s (s.a &&& data) (acAfterAnd s data) [] ∧
      LogicToA (.xri data) [0xEE, data] s (s.a ^^^ data) false [] ∧
      LogicToA (.ori data) [0xF6, data] s (s.a ||| data) false []) ∧
    (∀ (x : Word) (v : Byte), s.Quiet → x = pair s.h s.l → v = s.reads x →
      LogicToA .anaM [0xA6] s (s.a &&& v) (acAfterAnd s v) [mr x v] ∧
      LogicToA .xraM [0xAE] s (s.a ^^^ v) false [mr x v] ∧ LogicToA .oraM [0xB6] s (s.a ||| v) false [mr x v])

/-- CMP of a register, of memory and immediate (R238, R242, R246): the flags of SUB, and A is not written. -/
def Obligations.Compares : Prop :=
  ∀ s : State,
    (∀ src, HasForm (.cmpR src) [0xB8 + src.code] 4 ∧
      ∃ t, exec (.cmpR src) s = .next t ∧ After s t [] s.sp s.pc (differenceFlags s.a (s.reg src) false) [] []) ∧
    (∀ data, HasForm (.cpi data) [0xFE, data] 4 ∧
      ∃ t, exec (.cpi data) s = .next t ∧ After s t [] s.sp s.pc (differenceFlags s.a data false) [] []) ∧
    (∀ (x : Word) (v : Byte), s.Quiet → x = pair s.h s.l → v = s.reads x →
      HasForm .cmpM [0xBE] 4 ∧
        ∃ t, exec .cmpM s = .next t ∧ After s t [] s.sp s.pc (differenceFlags s.a v false) [] [mr x v])

/-- RLC, RRC, RAL, RAR (R247 to R250): A as a number doubled or halved with the bit that comes in, CY the bit that goes out, the
other flags unchanged. -/
def Obligations.Rotates : Prop :=
  ∀ s : State,
    (HasForm .rlc [0x07] 4 ∧ ∃ t, exec .rlc s = .next t ∧ t.a.toNat = 2 * s.a.toNat % 256 + s.a.toNat / 128 ∧
      After s t [.a] s.sp s.pc { s.flags with cy := decide (128 ≤ s.a.toNat) } [] []) ∧
    (HasForm .rrc [0x0F] 4 ∧ ∃ t, exec .rrc s = .next t ∧ t.a.toNat = s.a.toNat / 2 + 128 * (s.a.toNat % 2) ∧
      After s t [.a] s.sp s.pc { s.flags with cy := decide (s.a.toNat % 2 = 1) } [] []) ∧
    (HasForm .ral [0x17] 4 ∧ ∃ t, exec .ral s = .next t ∧ t.a.toNat = 2 * s.a.toNat % 256 + s.flags.cy.toNat ∧
      After s t [.a] s.sp s.pc { s.flags with cy := decide (128 ≤ s.a.toNat) } [] []) ∧
    (HasForm .rar [0x1F] 4 ∧ ∃ t, exec .rar s = .next t ∧ t.a.toNat = s.a.toNat / 2 + 128 * s.flags.cy.toNat ∧
      After s t [.a] s.sp s.pc { s.flags with cy := decide (s.a.toNat % 2 = 1) } [] [])

/-- CMA, STC, CMC and DAA (R251 to R254). DAA: 06H is added if the low digit is above 9 or AC is 1, 60H if the high digit is above 9,
or CY is 1, or it is 9 with a low digit above 9; CY is set or left alone, AC is the carry out of bit 3. -/
def Obligations.AccumulatorSpecials : Prop :=
  ∀ s : State,
    (HasForm .cma [0x2F] 4 ∧
      ∃ t, exec .cma s = .next t ∧ t.a.toNat = 255 - s.a.toNat ∧ After s t [.a] s.sp s.pc s.flags [] []) ∧
    (HasForm .stc [0x37] 4 ∧ ∃ t, exec .stc s = .next t ∧ After s t [] s.sp s.pc { s.flags with cy := true } [] []) ∧
    (HasForm .cmc [0x3F] 4 ∧
      ∃ t, exec .cmc s = .next t ∧ After s t [] s.sp s.pc { s.flags with cy := !s.flags.cy } [] []) ∧
    (∀ (low high : Bool) (corr : Nat),
      (low = true ↔ 9 < s.a.toNat % 16 ∨ s.flags.ac = true) →
      (high = true ↔ 9 < s.a.toNat / 16 ∨ s.flags.cy = true ∨ (9 ≤ s.a.toNat / 16 ∧ 9 < s.a.toNat % 16)) →
      corr = 6 * low.toNat + 96 * high.toNat →
      HasForm .daa [0x27] 4 ∧ ∃ t, exec .daa s = .next t ∧ t.a.toNat = (s.a.toNat + corr) % 256 ∧
        After s t [.a] s.sp s.pc
          (resultFlags t.a (decide (16 ≤ s.a.toNat % 16 + corr % 16)) (s.flags.cy || high)) [] [])

/-- Every instruction leaves the flags alone that R31, "the complete list", does not name for it, and so does every acceptance,
whatever the environment does meanwhile. -/
def Obligations.FlagsWrittenOnlyAsListed : Prop :=
  (∀ (i : Instr) (s t : State) (f : Flag), exec i s = .next t → f ∉ flagsWritten i → t.flags.get f = s.flags.get f) ∧
  (∀ (s t : State) (q : Request), s.accept q = .next t → t.flags = s.flags)

/-! ### Control, RIM, SIM -/

/-- EI, DI, NOP, HLT (R260 to R263): the flip-flops they write, and nothing else; HLT spends one more T state and then waits. -/
def Obligations.ControlInstructions : Prop :=
  ∀ s : State, HasForm .ei [0xFB] 4 ∧ HasForm .di [0xF3] 4 ∧ HasForm .nop [0x00] 4 ∧ HasForm .hlt [0x76] 4 ∧
    exec .ei s = .next { s with ie := true, inhibit := true } ∧
    exec .di s = .next { s with ie := false, inhibit := true } ∧
    exec .nop s = .next s ∧
    exec .hlt s = .next { s with halted := true, bus := s.bus ++ [⟨.idleHalt, none, none, 1, 0⟩] }

/-- RIM (R264): A takes SID, the RST 7.5 latch, the two pin levels, the enable, and the masks, bit by bit; nothing else changes but
TRAP_RIM, which is cleared. -/
def Obligations.ReadInterruptMask : Prop :=
  ∀ s : State, HasForm .rim [0x20] 4 ∧ ∃ t, exec .rim s = .next t ∧
    t.a.getLsbD 7 = s.pins.sid ∧ t.a.getLsbD 6 = s.r75 ∧ t.a.getLsbD 5 = s.pins.rst65 ∧ t.a.getLsbD 4 = s.pins.rst55 ∧
    t.a.getLsbD 3 = (if s.trapRIM = true then s.trapIE else s.ie) ∧
    t.a.getLsbD 2 = s.m75 ∧ t.a.getLsbD 1 = s.m65 ∧ t.a.getLsbD 0 = s.m55 ∧
    t = { s with a := t.a, trapRIM := false }

/-- SIM (R265): its three actions, each under its own enable bit of A; A and everything else is unchanged. -/
def Obligations.SetInterruptMask : Prop :=
  ∀ s : State, HasForm .sim [0x30] 4 ∧ ∃ t, exec .sim s = .next t ∧
    (s.a.getLsbD 3 = true → t.m75 = s.a.getLsbD 2 ∧ t.m65 = s.a.getLsbD 1 ∧ t.m55 = s.a.getLsbD 0) ∧
    (s.a.getLsbD 3 = false → t.m75 = s.m75 ∧ t.m65 = s.m65 ∧ t.m55 = s.m55) ∧
    (s.a.getLsbD 4 = true → t.r75 = false) ∧ (s.a.getLsbD 4 = false → t.r75 = s.r75) ∧
    (s.a.getLsbD 6 = true → t.sod = s.a.getLsbD 7) ∧ (s.a.getLsbD 6 = false → t.sod = s.sod) ∧
    t = { s with m75 := t.m75, m65 := t.m65, m55 := t.m55, r75 := t.r75, sod := t.sod }
end

