-- ==== Sys2Proof/Laws/Decode.lean ====
section
/-! SUPPORT. What the opcode map answers for each first byte, said once: an instruction whose encoding starts with that byte, or one
of the ten unassigned bytes. -/

namespace Sys2Proof.Machine

/-- A form agrees with the encoder on a first byte. -/
def FormOf (op : Byte) : Form → Prop
  | .r i => i.WellFormed ∧ encode i = [op]
  | .i8 f => ∀ b, (f b).WellFormed ∧ encode (f b) = [op, b]
  | .i16 f => ∀ w, (f w).WellFormed ∧ encode (f w) = encode16 op w
  | .unused => op ∈ unassignedOpcodes

/-- Every first byte's form agrees with the encoder. -/
theorem decodeOp_formOf (op : Byte) : FormOf op (decodeOp op) := by
  obtain ⟨n, hn, rfl⟩ : ∃ n, n < 256 ∧ op = BitVec.ofNat 8 n := ⟨op.toNat, op.isLt, by simp⟩
  interval_cases n <;> first | exact ⟨rfl, rfl⟩ | exact fun _ => ⟨rfl, rfl⟩ | (show _ ∈ _; decide)

/-- The ten unassigned bytes have no form (R110). -/
theorem decodeOp_unassigned (op : Byte) (h : op ∈ unassignedOpcodes) : decodeOp op = .unused := by
  simp only [unassignedOpcodes, List.mem_cons, List.not_mem_nil, or_false] at h
  rcases h with rfl | rfl | rfl | rfl | rfl | rfl | rfl | rfl | rfl | rfl <;> rfl

/-- An instruction has at least one byte. -/
theorem Instr.length_pos (i : Instr) : 0 < i.length := by cases i <;> exact Nat.succ_pos _

end Sys2Proof.Machine
end

