-- ==== Sys2Proof/Laws/Bits.lean ====
section
/-! SUPPORT. Bytes and words: a pair splits into its halves and is made of them. -/

namespace Sys2Proof

theorem pair_toNat (hi lo : Byte) : (pair hi lo).toNat = 256 * hi.toNat + lo.toNat := by
  have h := lo.isLt
  simp only [pair, BitVec.toNat_append]
  rw [← Nat.shiftLeft_add_eq_or_of_lt h, Nat.shiftLeft_eq]
  omega

theorem hiByte_toNat (w : Word) : (hiByte w).toNat = w.toNat / 256 := by
  have h := w.isLt
  simp only [hiByte, BitVec.extractLsb'_toNat, Nat.shiftRight_eq_div_pow]
  omega

theorem loByte_toNat (w : Word) : (loByte w).toNat = w.toNat % 256 := by
  simp [loByte, BitVec.extractLsb'_toNat]

@[simp] theorem pair_hi_lo (w : Word) : pair (hiByte w) (loByte w) = w := by
  apply BitVec.eq_of_toNat_eq
  rw [pair_toNat, hiByte_toNat, loByte_toNat]
  omega

@[simp] theorem hiByte_pair (hi lo : Byte) : hiByte (pair hi lo) = hi := by
  apply BitVec.eq_of_toNat_eq
  have h := lo.isLt
  rw [hiByte_toNat, pair_toNat]
  omega

@[simp] theorem loByte_pair (hi lo : Byte) : loByte (pair hi lo) = lo := by
  apply BitVec.eq_of_toNat_eq
  have h := lo.isLt
  rw [loByte_toNat, pair_toNat]
  omega

/-- The bits of a byte made of bits. -/
theorem byteOfBits_bits (b7 b6 b5 b4 b3 b2 b1 b0 : Bool) :
    (byteOfBits b7 b6 b5 b4 b3 b2 b1 b0).getLsbD 7 = b7 ∧ (byteOfBits b7 b6 b5 b4 b3 b2 b1 b0).getLsbD 6 = b6 ∧
    (byteOfBits b7 b6 b5 b4 b3 b2 b1 b0).getLsbD 5 = b5 ∧ (byteOfBits b7 b6 b5 b4 b3 b2 b1 b0).getLsbD 4 = b4 ∧
    (byteOfBits b7 b6 b5 b4 b3 b2 b1 b0).getLsbD 3 = b3 ∧ (byteOfBits b7 b6 b5 b4 b3 b2 b1 b0).getLsbD 2 = b2 ∧
    (byteOfBits b7 b6 b5 b4 b3 b2 b1 b0).getLsbD 1 = b1 ∧ (byteOfBits b7 b6 b5 b4 b3 b2 b1 b0).getLsbD 0 = b0 := by
  cases b7 <;> cases b6 <;> cases b5 <;> cases b4 <;> cases b3 <;> cases b2 <;> cases b1 <;> cases b0 <;>
    exact ⟨rfl, rfl, rfl, rfl, rfl, rfl, rfl, rfl⟩

end Sys2Proof
end

