-- ==== Sys2Proof/Laws/Memory.lean ====
section
/-! SUPPORT. Memory: a read after a write, and every memory operation keeps the canonical form. -/

namespace Sys2Proof.Machine

/-- No entry of the list has the address. -/
def Mem.Absent (m : Mem) (x : Nat) : Prop := ∀ e ∈ m, e.1 ≠ x

theorem Mem.absent_erase (m : Mem) (x : Nat) : Mem.Absent (Mem.erase m x) x := by
  induction m with
  | nil => intro e he; simp [Mem.erase] at he
  | cons e rest ih =>
    obtain ⟨k, v⟩ := e
    simp only [Mem.erase]
    split
    · exact ih
    · rename_i hk
      intro e he
      rcases List.mem_cons.mp he with rfl | he
      · exact hk
      · exact ih e he

theorem Mem.get_erase (m : Mem) (x y : Nat) : (Mem.erase m x).get y = if y = x then Mem.unlisted else m.get y := by
  induction m with
  | nil => simp [Mem.erase, Mem.get]
  | cons e rest ih =>
    obtain ⟨k, v⟩ := e
    by_cases hk : k = x
    · subst hk
      simp only [Mem.erase, if_true, ih, Mem.get]
      by_cases hy : y = k
      · simp [hy]
      · simp [hy, Ne.symm hy]
    · simp only [Mem.erase, if_neg hk, Mem.get, ih]
      by_cases hy : k = y
      · subst hy; simp [hk]
      · simp [hy]

theorem Mem.get_insert (m : Mem) (x : Nat) (v : Byte) (y : Nat) (h : Mem.Absent m x) :
    (Mem.insert m x v).get y = if y = x then v else m.get y := by
  induction m with
  | nil => simp [Mem.insert, Mem.get, eq_comm]
  | cons e rest ih =>
    obtain ⟨k, w⟩ := e
    have hk : k ≠ x := h (k, w) (by simp)
    have hr : Mem.Absent rest x := fun e he => h e (List.mem_cons_of_mem _ he)
    simp only [Mem.insert]
    split
    · simp [Mem.get, eq_comm]
    · simp only [Mem.get, ih hr]
      by_cases hy : y = x
      · simp [hy, hk]
      · simp [hy]

/-- A read after a write: the byte written at its address, every other as before. It needs no canonical form. -/
theorem Mem.get_set (m : Mem) (x : Nat) (v : Byte) (y : Nat) : (m.set x v).get y = if y = x then v else m.get y := by
  unfold Mem.set
  split
  · rename_i h; rw [Mem.get_erase, h]
  · rw [Mem.get_insert _ _ _ _ (Mem.absent_erase m x), Mem.get_erase]
    split <;> simp_all

theorem Mem.wfFrom_le {m : Mem} {a b : Nat} (h : a ≤ b) (hm : Mem.wfFrom b m = true) : Mem.wfFrom a m = true := by
  cases m with
  | nil => rfl
  | cons e rest =>
    obtain ⟨k, v⟩ := e
    simp only [Mem.wfFrom, Bool.and_eq_true, decide_eq_true_eq] at hm ⊢
    obtain ⟨⟨⟨h1, h2⟩, h3⟩, h4⟩ := hm
    exact ⟨⟨⟨by omega, h2⟩, h3⟩, h4⟩

theorem Mem.wfFrom_erase (m : Mem) (x lo : Nat) (hm : Mem.wfFrom lo m = true) : Mem.wfFrom lo (Mem.erase m x) = true := by
  induction m generalizing lo with
  | nil => rfl
  | cons e rest ih =>
    obtain ⟨k, v⟩ := e
    simp only [Mem.wfFrom, Bool.and_eq_true, decide_eq_true_eq] at hm
    obtain ⟨⟨⟨h1, h2⟩, h3⟩, h4⟩ := hm
    simp only [Mem.erase]
    split
    · exact Mem.wfFrom_le (by omega) (ih _ h4)
    · simp only [Mem.wfFrom, Bool.and_eq_true, decide_eq_true_eq]
      exact ⟨⟨⟨h1, h2⟩, h3⟩, ih _ h4⟩

theorem Mem.wfFrom_insert (m : Mem) (x lo : Nat) (v : Byte) (ha : Mem.Absent m x) (hx : x < 65536) (hl : lo ≤ x)
    (hv : v ≠ Mem.unlisted) (hm : Mem.wfFrom lo m = true) : Mem.wfFrom lo (Mem.insert m x v) = true := by
  induction m generalizing lo with
  | nil => simp [Mem.insert, Mem.wfFrom, hl, hx, hv]
  | cons e rest ih =>
    obtain ⟨k, w⟩ := e
    have hk : k ≠ x := ha (k, w) (by simp)
    have hr : Mem.Absent rest x := fun e he => ha e (List.mem_cons_of_mem _ he)
    simp only [Mem.wfFrom, Bool.and_eq_true, decide_eq_true_eq] at hm
    obtain ⟨⟨⟨h1, h2⟩, h3⟩, h4⟩ := hm
    simp only [Mem.insert]
    split
    · simp only [Mem.wfFrom, Bool.and_eq_true, decide_eq_true_eq]
      exact ⟨⟨⟨hl, hx⟩, hv⟩, ⟨⟨by omega, h2⟩, h3⟩, h4⟩
    · simp only [Mem.wfFrom, Bool.and_eq_true, decide_eq_true_eq]
      exact ⟨⟨⟨h1, h2⟩, h3⟩, ih _ hr (by omega) h4⟩

/-- A write keeps the canonical form. -/
theorem Mem.wf_set (m : Mem) (x : Nat) (v : Byte) (hx : x < 65536) (hm : m.wf = true) : (m.set x v).wf = true := by
  unfold Mem.set Mem.wf
  split
  · exact Mem.wfFrom_erase m x 0 hm
  · rename_i hv
    exact Mem.wfFrom_insert _ x 0 v (Mem.absent_erase m x) hx (Nat.zero_le _) hv (Mem.wfFrom_erase m x 0 hm)

/-- A store at an address keeps the canonical form, whatever the map has there. -/
theorem State.wf_store (s : State) (x : Word) (v : Byte) (h : s.mem.wf = true) : (s.store x v).mem.wf = true := by
  unfold State.store
  split
  · exact Mem.wf_set _ _ _ x.isLt h
  · exact h
  · exact h

/-- Every byte after a store: the stored one where the platform has RAM, every other as before (R68). -/
theorem State.byteAt_store (s : State) (x : Word) (v : Byte) (y : Word) :
    (s.store x v).byteAt y = if y = x ∧ s.kindOf x = .ram then v else s.byteAt y := by
  unfold State.store
  split <;> rename_i h
  · simp only [State.byteAt, Mem.get_set, h, and_true]
    by_cases hy : y = x
    · simp [hy]
    · simp [hy, BitVec.toNat_inj]
  · simp [h]
  · simp [h]

end Sys2Proof.Machine
end

