-- ==== Sys2Proof/Laws/State.lean ====
section
/-! SUPPORT. What each named update of the state leaves alone and what it writes, field by field; every lemma is true by rfl. -/

namespace Sys2Proof.Machine

@[simp] theorem State.reg_a (s : State) : s.reg .a = s.a := rfl
@[simp] theorem State.reg_b (s : State) : s.reg .b = s.b := rfl
@[simp] theorem State.reg_c (s : State) : s.reg .c = s.c := rfl
@[simp] theorem State.reg_d (s : State) : s.reg .d = s.d := rfl
@[simp] theorem State.reg_e (s : State) : s.reg .e = s.e := rfl
@[simp] theorem State.reg_h (s : State) : s.reg .h = s.h := rfl
@[simp] theorem State.reg_l (s : State) : s.reg .l = s.l := rfl


@[simp] theorem State.setReg_flags (s : State) (r : Reg) (v : Byte) : (s.setReg r v).flags = s.flags := by cases r <;> rfl
@[simp] theorem State.setReg_sp (s : State) (r : Reg) (v : Byte) : (s.setReg r v).sp = s.sp := by cases r <;> rfl
@[simp] theorem State.setReg_pc (s : State) (r : Reg) (v : Byte) : (s.setReg r v).pc = s.pc := by cases r <;> rfl
@[simp] theorem State.setReg_ie (s : State) (r : Reg) (v : Byte) : (s.setReg r v).ie = s.ie := by cases r <;> rfl
@[simp] theorem State.setReg_m55 (s : State) (r : Reg) (v : Byte) : (s.setReg r v).m55 = s.m55 := by cases r <;> rfl
@[simp] theorem State.setReg_m65 (s : State) (r : Reg) (v : Byte) : (s.setReg r v).m65 = s.m65 := by cases r <;> rfl
@[simp] theorem State.setReg_m75 (s : State) (r : Reg) (v : Byte) : (s.setReg r v).m75 = s.m75 := by cases r <;> rfl
@[simp] theorem State.setReg_r75 (s : State) (r : Reg) (v : Byte) : (s.setReg r v).r75 = s.r75 := by cases r <;> rfl
@[simp] theorem State.setReg_trapFF (s : State) (r : Reg) (v : Byte) : (s.setReg r v).trapFF = s.trapFF := by cases r <;> rfl
@[simp] theorem State.setReg_trapIE (s : State) (r : Reg) (v : Byte) : (s.setReg r v).trapIE = s.trapIE := by cases r <;> rfl
@[simp] theorem State.setReg_trapRIM (s : State) (r : Reg) (v : Byte) : (s.setReg r v).trapRIM = s.trapRIM := by cases r <;> rfl
@[simp] theorem State.setReg_inhibit (s : State) (r : Reg) (v : Byte) : (s.setReg r v).inhibit = s.inhibit := by cases r <;> rfl
@[simp] theorem State.setReg_starting (s : State) (r : Reg) (v : Byte) : (s.setReg r v).starting = s.starting := by cases r <;> rfl
@[simp] theorem State.setReg_sod (s : State) (r : Reg) (v : Byte) : (s.setReg r v).sod = s.sod := by cases r <;> rfl
@[simp] theorem State.setReg_hlda (s : State) (r : Reg) (v : Byte) : (s.setReg r v).hlda = s.hlda := by cases r <;> rfl
@[simp] theorem State.setReg_halted (s : State) (r : Reg) (v : Byte) : (s.setReg r v).halted = s.halted := by cases r <;> rfl
@[simp] theorem State.setReg_mem (s : State) (r : Reg) (v : Byte) : (s.setReg r v).mem = s.mem := by cases r <;> rfl
@[simp] theorem State.setReg_map (s : State) (r : Reg) (v : Byte) : (s.setReg r v).map = s.map := by cases r <;> rfl
@[simp] theorem State.setReg_anaAc (s : State) (r : Reg) (v : Byte) : (s.setReg r v).anaAc = s.anaAc := by cases r <;> rfl
@[simp] theorem State.setReg_pins (s : State) (r : Reg) (v : Byte) : (s.setReg r v).pins = s.pins := by cases r <;> rfl
@[simp] theorem State.setReg_env (s : State) (r : Reg) (v : Byte) : (s.setReg r v).env = s.env := by cases r <;> rfl
@[simp] theorem State.setReg_bus (s : State) (r : Reg) (v : Byte) : (s.setReg r v).bus = s.bus := by cases r <;> rfl

@[simp] theorem State.setRp_a (s : State) (p : RegPair) (v : Word) : (s.setRp p v).a = s.a := by cases p <;> rfl
@[simp] theorem State.setRp_flags (s : State) (p : RegPair) (v : Word) : (s.setRp p v).flags = s.flags := by cases p <;> rfl
@[simp] theorem State.setRp_pc (s : State) (p : RegPair) (v : Word) : (s.setRp p v).pc = s.pc := by cases p <;> rfl
@[simp] theorem State.setRp_ie (s : State) (p : RegPair) (v : Word) : (s.setRp p v).ie = s.ie := by cases p <;> rfl
@[simp] theorem State.setRp_m55 (s : State) (p : RegPair) (v : Word) : (s.setRp p v).m55 = s.m55 := by cases p <;> rfl
@[simp] theorem State.setRp_m65 (s : State) (p : RegPair) (v : Word) : (s.setRp p v).m65 = s.m65 := by cases p <;> rfl
@[simp] theorem State.setRp_m75 (s : State) (p : RegPair) (v : Word) : (s.setRp p v).m75 = s.m75 := by cases p <;> rfl
@[simp] theorem State.setRp_r75 (s : State) (p : RegPair) (v : Word) : (s.setRp p v).r75 = s.r75 := by cases p <;> rfl
@[simp] theorem State.setRp_trapFF (s : State) (p : RegPair) (v : Word) : (s.setRp p v).trapFF = s.trapFF := by cases p <;> rfl
@[simp] theorem State.setRp_trapIE (s : State) (p : RegPair) (v : Word) : (s.setRp p v).trapIE = s.trapIE := by cases p <;> rfl
@[simp] theorem State.setRp_trapRIM (s : State) (p : RegPair) (v : Word) : (s.setRp p v).trapRIM = s.trapRIM := by cases p <;> rfl
@[simp] theorem State.setRp_inhibit (s : State) (p : RegPair) (v : Word) : (s.setRp p v).inhibit = s.inhibit := by cases p <;> rfl
@[simp] theorem State.setRp_starting (s : State) (p : RegPair) (v : Word) : (s.setRp p v).starting = s.starting := by cases p <;> rfl
@[simp] theorem State.setRp_sod (s : State) (p : RegPair) (v : Word) : (s.setRp p v).sod = s.sod := by cases p <;> rfl
@[simp] theorem State.setRp_hlda (s : State) (p : RegPair) (v : Word) : (s.setRp p v).hlda = s.hlda := by cases p <;> rfl
@[simp] theorem State.setRp_halted (s : State) (p : RegPair) (v : Word) : (s.setRp p v).halted = s.halted := by cases p <;> rfl
@[simp] theorem State.setRp_mem (s : State) (p : RegPair) (v : Word) : (s.setRp p v).mem = s.mem := by cases p <;> rfl
@[simp] theorem State.setRp_map (s : State) (p : RegPair) (v : Word) : (s.setRp p v).map = s.map := by cases p <;> rfl
@[simp] theorem State.setRp_anaAc (s : State) (p : RegPair) (v : Word) : (s.setRp p v).anaAc = s.anaAc := by cases p <;> rfl
@[simp] theorem State.setRp_pins (s : State) (p : RegPair) (v : Word) : (s.setRp p v).pins = s.pins := by cases p <;> rfl
@[simp] theorem State.setRp_env (s : State) (p : RegPair) (v : Word) : (s.setRp p v).env = s.env := by cases p <;> rfl
@[simp] theorem State.setRp_bus (s : State) (p : RegPair) (v : Word) : (s.setRp p v).bus = s.bus := by cases p <;> rfl

@[simp] theorem State.setPc_a (s : State) (v : Word) : (s.setPc v).a = s.a := rfl
@[simp] theorem State.setPc_b (s : State) (v : Word) : (s.setPc v).b = s.b := rfl
@[simp] theorem State.setPc_c (s : State) (v : Word) : (s.setPc v).c = s.c := rfl
@[simp] theorem State.setPc_d (s : State) (v : Word) : (s.setPc v).d = s.d := rfl
@[simp] theorem State.setPc_e (s : State) (v : Word) : (s.setPc v).e = s.e := rfl
@[simp] theorem State.setPc_h (s : State) (v : Word) : (s.setPc v).h = s.h := rfl
@[simp] theorem State.setPc_l (s : State) (v : Word) : (s.setPc v).l = s.l := rfl
@[simp] theorem State.setPc_flags (s : State) (v : Word) : (s.setPc v).flags = s.flags := rfl
@[simp] theorem State.setPc_sp (s : State) (v : Word) : (s.setPc v).sp = s.sp := rfl
@[simp] theorem State.setPc_ie (s : State) (v : Word) : (s.setPc v).ie = s.ie := rfl
@[simp] theorem State.setPc_m55 (s : State) (v : Word) : (s.setPc v).m55 = s.m55 := rfl
@[simp] theorem State.setPc_m65 (s : State) (v : Word) : (s.setPc v).m65 = s.m65 := rfl
@[simp] theorem State.setPc_m75 (s : State) (v : Word) : (s.setPc v).m75 = s.m75 := rfl
@[simp] theorem State.setPc_r75 (s : State) (v : Word) : (s.setPc v).r75 = s.r75 := rfl
@[simp] theorem State.setPc_trapFF (s : State) (v : Word) : (s.setPc v).trapFF = s.trapFF := rfl
@[simp] theorem State.setPc_trapIE (s : State) (v : Word) : (s.setPc v).trapIE = s.trapIE := rfl
@[simp] theorem State.setPc_trapRIM (s : State) (v : Word) : (s.setPc v).trapRIM = s.trapRIM := rfl
@[simp] theorem State.setPc_inhibit (s : State) (v : Word) : (s.setPc v).inhibit = s.inhibit := rfl
@[simp] theorem State.setPc_starting (s : State) (v : Word) : (s.setPc v).starting = s.starting := rfl
@[simp] theorem State.setPc_sod (s : State) (v : Word) : (s.setPc v).sod = s.sod := rfl
@[simp] theorem State.setPc_hlda (s : State) (v : Word) : (s.setPc v).hlda = s.hlda := rfl
@[simp] theorem State.setPc_halted (s : State) (v : Word) : (s.setPc v).halted = s.halted := rfl
@[simp] theorem State.setPc_mem (s : State) (v : Word) : (s.setPc v).mem = s.mem := rfl
@[simp] theorem State.setPc_map (s : State) (v : Word) : (s.setPc v).map = s.map := rfl
@[simp] theorem State.setPc_anaAc (s : State) (v : Word) : (s.setPc v).anaAc = s.anaAc := rfl
@[simp] theorem State.setPc_pins (s : State) (v : Word) : (s.setPc v).pins = s.pins := rfl
@[simp] theorem State.setPc_env (s : State) (v : Word) : (s.setPc v).env = s.env := rfl
@[simp] theorem State.setPc_bus (s : State) (v : Word) : (s.setPc v).bus = s.bus := rfl

@[simp] theorem State.setFlags_a (s : State) (f : Flags) : (s.setFlags f).a = s.a := rfl
@[simp] theorem State.setFlags_b (s : State) (f : Flags) : (s.setFlags f).b = s.b := rfl
@[simp] theorem State.setFlags_c (s : State) (f : Flags) : (s.setFlags f).c = s.c := rfl
@[simp] theorem State.setFlags_d (s : State) (f : Flags) : (s.setFlags f).d = s.d := rfl
@[simp] theorem State.setFlags_e (s : State) (f : Flags) : (s.setFlags f).e = s.e := rfl
@[simp] theorem State.setFlags_h (s : State) (f : Flags) : (s.setFlags f).h = s.h := rfl
@[simp] theorem State.setFlags_l (s : State) (f : Flags) : (s.setFlags f).l = s.l := rfl
@[simp] theorem State.setFlags_sp (s : State) (f : Flags) : (s.setFlags f).sp = s.sp := rfl
@[simp] theorem State.setFlags_pc (s : State) (f : Flags) : (s.setFlags f).pc = s.pc := rfl
@[simp] theorem State.setFlags_ie (s : State) (f : Flags) : (s.setFlags f).ie = s.ie := rfl
@[simp] theorem State.setFlags_m55 (s : State) (f : Flags) : (s.setFlags f).m55 = s.m55 := rfl
@[simp] theorem State.setFlags_m65 (s : State) (f : Flags) : (s.setFlags f).m65 = s.m65 := rfl
@[simp] theorem State.setFlags_m75 (s : State) (f : Flags) : (s.setFlags f).m75 = s.m75 := rfl
@[simp] theorem State.setFlags_r75 (s : State) (f : Flags) : (s.setFlags f).r75 = s.r75 := rfl
@[simp] theorem State.setFlags_trapFF (s : State) (f : Flags) : (s.setFlags f).trapFF = s.trapFF := rfl
@[simp] theorem State.setFlags_trapIE (s : State) (f : Flags) : (s.setFlags f).trapIE = s.trapIE := rfl
@[simp] theorem State.setFlags_trapRIM (s : State) (f : Flags) : (s.setFlags f).trapRIM = s.trapRIM := rfl
@[simp] theorem State.setFlags_inhibit (s : State) (f : Flags) : (s.setFlags f).inhibit = s.inhibit := rfl
@[simp] theorem State.setFlags_starting (s : State) (f : Flags) : (s.setFlags f).starting = s.starting := rfl
@[simp] theorem State.setFlags_sod (s : State) (f : Flags) : (s.setFlags f).sod = s.sod := rfl
@[simp] theorem State.setFlags_hlda (s : State) (f : Flags) : (s.setFlags f).hlda = s.hlda := rfl
@[simp] theorem State.setFlags_halted (s : State) (f : Flags) : (s.setFlags f).halted = s.halted := rfl
@[simp] theorem State.setFlags_mem (s : State) (f : Flags) : (s.setFlags f).mem = s.mem := rfl
@[simp] theorem State.setFlags_map (s : State) (f : Flags) : (s.setFlags f).map = s.map := rfl
@[simp] theorem State.setFlags_anaAc (s : State) (f : Flags) : (s.setFlags f).anaAc = s.anaAc := rfl
@[simp] theorem State.setFlags_pins (s : State) (f : Flags) : (s.setFlags f).pins = s.pins := rfl
@[simp] theorem State.setFlags_env (s : State) (f : Flags) : (s.setFlags f).env = s.env := rfl
@[simp] theorem State.setFlags_bus (s : State) (f : Flags) : (s.setFlags f).bus = s.bus := rfl

@[simp] theorem State.log_a (s : State) (k : CycleKind) (x : Option Word) (v : Option Byte) (n w : Nat) : (s.log k x v n w).a = s.a := rfl
@[simp] theorem State.log_b (s : State) (k : CycleKind) (x : Option Word) (v : Option Byte) (n w : Nat) : (s.log k x v n w).b = s.b := rfl
@[simp] theorem State.log_c (s : State) (k : CycleKind) (x : Option Word) (v : Option Byte) (n w : Nat) : (s.log k x v n w).c = s.c := rfl
@[simp] theorem State.log_d (s : State) (k : CycleKind) (x : Option Word) (v : Option Byte) (n w : Nat) : (s.log k x v n w).d = s.d := rfl
@[simp] theorem State.log_e (s : State) (k : CycleKind) (x : Option Word) (v : Option Byte) (n w : Nat) : (s.log k x v n w).e = s.e := rfl
@[simp] theorem State.log_h (s : State) (k : CycleKind) (x : Option Word) (v : Option Byte) (n w : Nat) : (s.log k x v n w).h = s.h := rfl
@[simp] theorem State.log_l (s : State) (k : CycleKind) (x : Option Word) (v : Option Byte) (n w : Nat) : (s.log k x v n w).l = s.l := rfl
@[simp] theorem State.log_flags (s : State) (k : CycleKind) (x : Option Word) (v : Option Byte) (n w : Nat) : (s.log k x v n w).flags = s.flags := rfl
@[simp] theorem State.log_sp (s : State) (k : CycleKind) (x : Option Word) (v : Option Byte) (n w : Nat) : (s.log k x v n w).sp = s.sp := rfl
@[simp] theorem State.log_pc (s : State) (k : CycleKind) (x : Option Word) (v : Option Byte) (n w : Nat) : (s.log k x v n w).pc = s.pc := rfl
@[simp] theorem State.log_ie (s : State) (k : CycleKind) (x : Option Word) (v : Option Byte) (n w : Nat) : (s.log k x v n w).ie = s.ie := rfl
@[simp] theorem State.log_m55 (s : State) (k : CycleKind) (x : Option Word) (v : Option Byte) (n w : Nat) : (s.log k x v n w).m55 = s.m55 := rfl
@[simp] theorem State.log_m65 (s : State) (k : CycleKind) (x : Option Word) (v : Option Byte) (n w : Nat) : (s.log k x v n w).m65 = s.m65 := rfl
@[simp] theorem State.log_m75 (s : State) (k : CycleKind) (x : Option Word) (v : Option Byte) (n w : Nat) : (s.log k x v n w).m75 = s.m75 := rfl
@[simp] theorem State.log_r75 (s : State) (k : CycleKind) (x : Option Word) (v : Option Byte) (n w : Nat) : (s.log k x v n w).r75 = s.r75 := rfl
@[simp] theorem State.log_trapFF (s : State) (k : CycleKind) (x : Option Word) (v : Option Byte) (n w : Nat) : (s.log k x v n w).trapFF = s.trapFF := rfl
@[simp] theorem State.log_trapIE (s : State) (k : CycleKind) (x : Option Word) (v : Option Byte) (n w : Nat) : (s.log k x v n w).trapIE = s.trapIE := rfl
@[simp] theorem State.log_trapRIM (s : State) (k : CycleKind) (x : Option Word) (v : Option Byte) (n w : Nat) : (s.log k x v n w).trapRIM = s.trapRIM := rfl
@[simp] theorem State.log_inhibit (s : State) (k : CycleKind) (x : Option Word) (v : Option Byte) (n w : Nat) : (s.log k x v n w).inhibit = s.inhibit := rfl
@[simp] theorem State.log_starting (s : State) (k : CycleKind) (x : Option Word) (v : Option Byte) (n w : Nat) : (s.log k x v n w).starting = s.starting := rfl
@[simp] theorem State.log_sod (s : State) (k : CycleKind) (x : Option Word) (v : Option Byte) (n w : Nat) : (s.log k x v n w).sod = s.sod := rfl
@[simp] theorem State.log_hlda (s : State) (k : CycleKind) (x : Option Word) (v : Option Byte) (n w : Nat) : (s.log k x v n w).hlda = s.hlda := rfl
@[simp] theorem State.log_halted (s : State) (k : CycleKind) (x : Option Word) (v : Option Byte) (n w : Nat) : (s.log k x v n w).halted = s.halted := rfl
@[simp] theorem State.log_mem (s : State) (k : CycleKind) (x : Option Word) (v : Option Byte) (n w : Nat) : (s.log k x v n w).mem = s.mem := rfl
@[simp] theorem State.log_map (s : State) (k : CycleKind) (x : Option Word) (v : Option Byte) (n w : Nat) : (s.log k x v n w).map = s.map := rfl
@[simp] theorem State.log_anaAc (s : State) (k : CycleKind) (x : Option Word) (v : Option Byte) (n w : Nat) : (s.log k x v n w).anaAc = s.anaAc := rfl
@[simp] theorem State.log_pins (s : State) (k : CycleKind) (x : Option Word) (v : Option Byte) (n w : Nat) : (s.log k x v n w).pins = s.pins := rfl
@[simp] theorem State.log_env (s : State) (k : CycleKind) (x : Option Word) (v : Option Byte) (n w : Nat) : (s.log k x v n w).env = s.env := rfl

@[simp] theorem State.endHold_a (s : State) : (s.endHold).a = s.a := rfl
@[simp] theorem State.endHold_b (s : State) : (s.endHold).b = s.b := rfl
@[simp] theorem State.endHold_c (s : State) : (s.endHold).c = s.c := rfl
@[simp] theorem State.endHold_d (s : State) : (s.endHold).d = s.d := rfl
@[simp] theorem State.endHold_e (s : State) : (s.endHold).e = s.e := rfl
@[simp] theorem State.endHold_h (s : State) : (s.endHold).h = s.h := rfl
@[simp] theorem State.endHold_l (s : State) : (s.endHold).l = s.l := rfl
@[simp] theorem State.endHold_flags (s : State) : (s.endHold).flags = s.flags := rfl
@[simp] theorem State.endHold_sp (s : State) : (s.endHold).sp = s.sp := rfl
@[simp] theorem State.endHold_pc (s : State) : (s.endHold).pc = s.pc := rfl
@[simp] theorem State.endHold_ie (s : State) : (s.endHold).ie = s.ie := rfl
@[simp] theorem State.endHold_m55 (s : State) : (s.endHold).m55 = s.m55 := rfl
@[simp] theorem State.endHold_m65 (s : State) : (s.endHold).m65 = s.m65 := rfl
@[simp] theorem State.endHold_m75 (s : State) : (s.endHold).m75 = s.m75 := rfl
@[simp] theorem State.endHold_r75 (s : State) : (s.endHold).r75 = s.r75 := rfl
@[simp] theorem State.endHold_trapFF (s : State) : (s.endHold).trapFF = s.trapFF := rfl
@[simp] theorem State.endHold_trapIE (s : State) : (s.endHold).trapIE = s.trapIE := rfl
@[simp] theorem State.endHold_trapRIM (s : State) : (s.endHold).trapRIM = s.trapRIM := rfl
@[simp] theorem State.endHold_inhibit (s : State) : (s.endHold).inhibit = s.inhibit := rfl
@[simp] theorem State.endHold_starting (s : State) : (s.endHold).starting = s.starting := rfl
@[simp] theorem State.endHold_sod (s : State) : (s.endHold).sod = s.sod := rfl
@[simp] theorem State.endHold_halted (s : State) : (s.endHold).halted = s.halted := rfl
@[simp] theorem State.endHold_mem (s : State) : (s.endHold).mem = s.mem := rfl
@[simp] theorem State.endHold_map (s : State) : (s.endHold).map = s.map := rfl
@[simp] theorem State.endHold_anaAc (s : State) : (s.endHold).anaAc = s.anaAc := rfl
@[simp] theorem State.endHold_env (s : State) : (s.endHold).env = s.env := rfl
@[simp] theorem State.endHold_bus (s : State) : (s.endHold).bus = s.bus := rfl

@[simp] theorem State.setPc_pc (s : State) (v : Word) : (s.setPc v).pc = v := rfl
@[simp] theorem State.setFlags_flags (s : State) (f : Flags) : (s.setFlags f).flags = f := rfl
@[simp] theorem State.setRp_sp_sp (s : State) (v : Word) : (s.setRp .sp v).sp = v := rfl
@[simp] theorem State.setRp_bc_sp (s : State) (v : Word) : (s.setRp .bc v).sp = s.sp := rfl
@[simp] theorem State.setRp_de_sp (s : State) (v : Word) : (s.setRp .de v).sp = s.sp := rfl
@[simp] theorem State.setRp_hl_sp (s : State) (v : Word) : (s.setRp .hl v).sp = s.sp := rfl
@[simp] theorem State.log_bus (s : State) (k : CycleKind) (x : Option Word) (v : Option Byte) (n w : Nat) :
    (s.log k x v n w).bus = s.bus ++ [⟨k, x, v, n, w⟩] := rfl

/-- A register reads what was last written to it, and the others are as they were. -/
theorem State.reg_setReg (s : State) (r q : Reg) (v : Byte) :
    (s.setReg r v).reg q = if q = r then v else s.reg q := by
  cases r <;> cases q <;> rfl

@[simp] theorem State.reg_setReg_self (s : State) (r : Reg) (v : Byte) : (s.setReg r v).reg r = v := by
  cases r <;> rfl

@[simp] theorem State.reg_setPc (s : State) (v : Word) (r : Reg) : (s.setPc v).reg r = s.reg r := by cases r <;> rfl
@[simp] theorem State.reg_setFlags (s : State) (f : Flags) (r : Reg) : (s.setFlags f).reg r = s.reg r := by cases r <;> rfl
@[simp] theorem State.reg_log (s : State) (k : CycleKind) (x : Option Word) (v : Option Byte) (n w : Nat) (r : Reg) :
    (s.log k x v n w).reg r = s.reg r := by cases r <;> rfl

@[simp] theorem State.byteAt_setReg (s : State) (r : Reg) (v : Byte) (x : Word) : (s.setReg r v).byteAt x = s.byteAt x := by
  cases r <;> rfl
@[simp] theorem State.byteAt_setRp (s : State) (p : RegPair) (v x : Word) : (s.setRp p v).byteAt x = s.byteAt x := by
  cases p <;> rfl
@[simp] theorem State.byteAt_setPc (s : State) (v x : Word) : (s.setPc v).byteAt x = s.byteAt x := rfl
@[simp] theorem State.byteAt_setFlags (s : State) (f : Flags) (x : Word) : (s.setFlags f).byteAt x = s.byteAt x := rfl
@[simp] theorem State.byteAt_log (s : State) (k : CycleKind) (a : Option Word) (v : Option Byte) (n w : Nat) (x : Word) :
    (s.log k a v n w).byteAt x = s.byteAt x := rfl

end Sys2Proof.Machine
end

