-- ==== Sys2Proof/Laws/Ops.lean ====
section
/-! SUPPORT. What each shared operation can do: what a read or a store leaves alone, the quiet form of every bus transfer, and,
whatever the environment does between transfers, what it cannot touch (`State.chip`). -/

namespace Sys2Proof.Machine

/-! ### A sample reads; a store writes one byte of memory -/

@[simp] theorem State.sample_a (s : State) (x : Word) : (s.sample x).2.a = s.a := by unfold State.sample; split <;> rfl
@[simp] theorem State.sample_b (s : State) (x : Word) : (s.sample x).2.b = s.b := by unfold State.sample; split <;> rfl
@[simp] theorem State.sample_c (s : State) (x : Word) : (s.sample x).2.c = s.c := by unfold State.sample; split <;> rfl
@[simp] theorem State.sample_d (s : State) (x : Word) : (s.sample x).2.d = s.d := by unfold State.sample; split <;> rfl
@[simp] theorem State.sample_e (s : State) (x : Word) : (s.sample x).2.e = s.e := by unfold State.sample; split <;> rfl
@[simp] theorem State.sample_h (s : State) (x : Word) : (s.sample x).2.h = s.h := by unfold State.sample; split <;> rfl
@[simp] theorem State.sample_l (s : State) (x : Word) : (s.sample x).2.l = s.l := by unfold State.sample; split <;> rfl
@[simp] theorem State.sample_flags (s : State) (x : Word) : (s.sample x).2.flags = s.flags := by unfold State.sample; split <;> rfl
@[simp] theorem State.sample_sp (s : State) (x : Word) : (s.sample x).2.sp = s.sp := by unfold State.sample; split <;> rfl
@[simp] theorem State.sample_pc (s : State) (x : Word) : (s.sample x).2.pc = s.pc := by unfold State.sample; split <;> rfl
@[simp] theorem State.sample_ie (s : State) (x : Word) : (s.sample x).2.ie = s.ie := by unfold State.sample; split <;> rfl
@[simp] theorem State.sample_m55 (s : State) (x : Word) : (s.sample x).2.m55 = s.m55 := by unfold State.sample; split <;> rfl
@[simp] theorem State.sample_m65 (s : State) (x : Word) : (s.sample x).2.m65 = s.m65 := by unfold State.sample; split <;> rfl
@[simp] theorem State.sample_m75 (s : State) (x : Word) : (s.sample x).2.m75 = s.m75 := by unfold State.sample; split <;> rfl
@[simp] theorem State.sample_r75 (s : State) (x : Word) : (s.sample x).2.r75 = s.r75 := by unfold State.sample; split <;> rfl
@[simp] theorem State.sample_trapFF (s : State) (x : Word) : (s.sample x).2.trapFF = s.trapFF := by unfold State.sample; split <;> rfl
@[simp] theorem State.sample_trapIE (s : State) (x : Word) : (s.sample x).2.trapIE = s.trapIE := by unfold State.sample; split <;> rfl
@[simp] theorem State.sample_trapRIM (s : State) (x : Word) : (s.sample x).2.trapRIM = s.trapRIM := by unfold State.sample; split <;> rfl
@[simp] theorem State.sample_inhibit (s : State) (x : Word) : (s.sample x).2.inhibit = s.inhibit := by unfold State.sample; split <;> rfl
@[simp] theorem State.sample_starting (s : State) (x : Word) : (s.sample x).2.starting = s.starting := by unfold State.sample; split <;> rfl
@[simp] theorem State.sample_sod (s : State) (x : Word) : (s.sample x).2.sod = s.sod := by unfold State.sample; split <;> rfl
@[simp] theorem State.sample_hlda (s : State) (x : Word) : (s.sample x).2.hlda = s.hlda := by unfold State.sample; split <;> rfl
@[simp] theorem State.sample_halted (s : State) (x : Word) : (s.sample x).2.halted = s.halted := by unfold State.sample; split <;> rfl
@[simp] theorem State.sample_mem (s : State) (x : Word) : (s.sample x).2.mem = s.mem := by unfold State.sample; split <;> rfl
@[simp] theorem State.sample_map (s : State) (x : Word) : (s.sample x).2.map = s.map := by unfold State.sample; split <;> rfl
@[simp] theorem State.sample_anaAc (s : State) (x : Word) : (s.sample x).2.anaAc = s.anaAc := by unfold State.sample; split <;> rfl
@[simp] theorem State.sample_pins (s : State) (x : Word) : (s.sample x).2.pins = s.pins := by unfold State.sample; split <;> rfl
@[simp] theorem State.sample_bus (s : State) (x : Word) : (s.sample x).2.bus = s.bus := by unfold State.sample; split <;> rfl

@[simp] theorem State.store_a (s : State) (x : Word) (v : Byte) : (s.store x v).a = s.a := by unfold State.store; split <;> rfl
@[simp] theorem State.store_b (s : State) (x : Word) (v : Byte) : (s.store x v).b = s.b := by unfold State.store; split <;> rfl
@[simp] theorem State.store_c (s : State) (x : Word) (v : Byte) : (s.store x v).c = s.c := by unfold State.store; split <;> rfl
@[simp] theorem State.store_d (s : State) (x : Word) (v : Byte) : (s.store x v).d = s.d := by unfold State.store; split <;> rfl
@[simp] theorem State.store_e (s : State) (x : Word) (v : Byte) : (s.store x v).e = s.e := by unfold State.store; split <;> rfl
@[simp] theorem State.store_h (s : State) (x : Word) (v : Byte) : (s.store x v).h = s.h := by unfold State.store; split <;> rfl
@[simp] theorem State.store_l (s : State) (x : Word) (v : Byte) : (s.store x v).l = s.l := by unfold State.store; split <;> rfl
@[simp] theorem State.store_flags (s : State) (x : Word) (v : Byte) : (s.store x v).flags = s.flags := by unfold State.store; split <;> rfl
@[simp] theorem State.store_sp (s : State) (x : Word) (v : Byte) : (s.store x v).sp = s.sp := by unfold State.store; split <;> rfl
@[simp] theorem State.store_pc (s : State) (x : Word) (v : Byte) : (s.store x v).pc = s.pc := by unfold State.store; split <;> rfl
@[simp] theorem State.store_ie (s : State) (x : Word) (v : Byte) : (s.store x v).ie = s.ie := by unfold State.store; split <;> rfl
@[simp] theorem State.store_m55 (s : State) (x : Word) (v : Byte) : (s.store x v).m55 = s.m55 := by unfold State.store; split <;> rfl
@[simp] theorem State.store_m65 (s : State) (x : Word) (v : Byte) : (s.store x v).m65 = s.m65 := by unfold State.store; split <;> rfl
@[simp] theorem State.store_m75 (s : State) (x : Word) (v : Byte) : (s.store x v).m75 = s.m75 := by unfold State.store; split <;> rfl
@[simp] theorem State.store_r75 (s : State) (x : Word) (v : Byte) : (s.store x v).r75 = s.r75 := by unfold State.store; split <;> rfl
@[simp] theorem State.store_trapFF (s : State) (x : Word) (v : Byte) : (s.store x v).trapFF = s.trapFF := by unfold State.store; split <;> rfl
@[simp] theorem State.store_trapIE (s : State) (x : Word) (v : Byte) : (s.store x v).trapIE = s.trapIE := by unfold State.store; split <;> rfl
@[simp] theorem State.store_trapRIM (s : State) (x : Word) (v : Byte) : (s.store x v).trapRIM = s.trapRIM := by unfold State.store; split <;> rfl
@[simp] theorem State.store_inhibit (s : State) (x : Word) (v : Byte) : (s.store x v).inhibit = s.inhibit := by unfold State.store; split <;> rfl
@[simp] theorem State.store_starting (s : State) (x : Word) (v : Byte) : (s.store x v).starting = s.starting := by unfold State.store; split <;> rfl
@[simp] theorem State.store_sod (s : State) (x : Word) (v : Byte) : (s.store x v).sod = s.sod := by unfold State.store; split <;> rfl
@[simp] theorem State.store_hlda (s : State) (x : Word) (v : Byte) : (s.store x v).hlda = s.hlda := by unfold State.store; split <;> rfl
@[simp] theorem State.store_halted (s : State) (x : Word) (v : Byte) : (s.store x v).halted = s.halted := by unfold State.store; split <;> rfl
@[simp] theorem State.store_map (s : State) (x : Word) (v : Byte) : (s.store x v).map = s.map := by unfold State.store; split <;> rfl
@[simp] theorem State.store_anaAc (s : State) (x : Word) (v : Byte) : (s.store x v).anaAc = s.anaAc := by unfold State.store; split <;> rfl
@[simp] theorem State.store_pins (s : State) (x : Word) (v : Byte) : (s.store x v).pins = s.pins := by unfold State.store; split <;> rfl
@[simp] theorem State.store_env (s : State) (x : Word) (v : Byte) : (s.store x v).env = s.env := by unfold State.store; split <;> rfl
@[simp] theorem State.store_bus (s : State) (x : Word) (v : Byte) : (s.store x v).bus = s.bus := by unfold State.store; split <;> rfl

@[simp] theorem State.byteAt_sample (s : State) (x y : Word) : (s.sample x).2.byteAt y = s.byteAt y := by simp [State.byteAt]
@[simp] theorem State.reg_sample (s : State) (x : Word) (r : Reg) : (s.sample x).2.reg r = s.reg r := by cases r <;> simp
@[simp] theorem State.reg_store (s : State) (x : Word) (v : Byte) (r : Reg) : (s.store x v).reg r = s.reg r := by cases r <;> simp
@[simp] theorem State.rp_sample (s : State) (x : Word) (p : RegPair) : (s.sample x).2.rp p = s.rp p := by
  cases p <;> simp [State.rp]
@[simp] theorem State.rp_store (s : State) (x : Word) (v : Byte) (p : RegPair) : (s.store x v).rp p = s.rp p := by
  cases p <;> simp [State.rp]
@[simp] theorem State.rp_log (s : State) (k : CycleKind) (x : Option Word) (v : Option Byte) (n w : Nat) (p : RegPair) :
    (s.log k x v n w).rp p = s.rp p := by cases p <;> rfl
@[simp] theorem State.hl_sample (s : State) (x : Word) : (s.sample x).2.hl = s.hl := by simp [State.hl]
@[simp] theorem State.hl_log (s : State) (k : CycleKind) (x : Option Word) (v : Option Byte) (n w : Nat) :
    (s.log k x v n w).hl = s.hl := rfl
@[simp] theorem State.kindOf_sample (s : State) (x y : Word) : (s.sample x).2.kindOf y = s.kindOf y := by simp [State.kindOf]
@[simp] theorem State.kindOf_store (s : State) (x : Word) (v : Byte) (y : Word) : (s.store x v).kindOf y = s.kindOf y := by
  simp [State.kindOf]
@[simp] theorem State.kindOf_log (s : State) (k : CycleKind) (x : Option Word) (v : Option Byte) (n w : Nat) (y : Word) :
    (s.log k x v n w).kindOf y = s.kindOf y := rfl
@[simp] theorem State.sample_log (s : State) (k : CycleKind) (x : Option Word) (v : Option Byte) (n w : Nat) (y : Word) :
    (s.log k x v n w).sample y = ((s.sample y).1, (s.sample y).2.log k x v n w) := by
  unfold State.sample
  rw [State.kindOf_log]
  split <;> rfl

theorem Env.draw_xfers (v : Env) : v.draw.2.xfers = v.xfers := by unfold Env.draw; split <;> rfl

theorem Env.memAnswer_xfers (v : Env) : v.memAnswer.2.xfers = v.xfers := by
  unfold Env.memAnswer; split
  · rfl
  · exact Env.draw_xfers v

theorem Env.ioAnswer_xfers (v : Env) : v.ioAnswer.2.xfers = v.xfers := by
  unfold Env.ioAnswer; split
  · rfl
  · exact Env.draw_xfers v

theorem Env.intaAnswer_xfers (v : Env) : v.intaAnswer.2.xfers = v.xfers := by
  unfold Env.intaAnswer; split
  · rfl
  · exact Env.draw_xfers v

@[simp] theorem State.sample_xfers (s : State) (x : Word) : (s.sample x).2.env.xfers = s.env.xfers := by
  unfold State.sample; split
  · rfl
  · rfl
  · exact Env.memAnswer_xfers s.env

/-- A read of RAM or ROM returns the stored byte and changes nothing (R68). -/
theorem State.sample_stored (s : State) (x : Word) (h : s.stored x) : s.sample x = (s.byteAt x, s) := by
  unfold State.sample
  unfold State.stored at h
  split
  · rfl
  · rfl
  · rename_i hk; exact absurd hk h

/-! ### Quiet bus transfers -/

theorem State.gap_quiet (s : State) (h : s.Quiet) : s.gap = (s, 0) := by unfold State.gap; rw [h]

/-- A quiet memory read. -/
theorem State.memRead_quiet (s : State) (x : Word) (h : s.Quiet) :
    s.memRead x = ((s.sample x).1, (s.sample x).2.log .memRead (some x) (some (s.sample x).1) 3 0) := by
  simp only [State.memRead, State.gap_quiet s h]

/-- A quiet opcode fetch. -/
theorem State.opFetch_quiet (s : State) (h : s.Quiet) :
    s.opFetch = ((s.sample s.pc).1,
      (s.sample s.pc).2.log .opFetch (some s.pc) (some (s.sample s.pc).1) (fetchTStates (s.sample s.pc).1) 0) := by
  simp only [State.opFetch, State.gap_quiet s h]

/-- A quiet memory write. -/
theorem State.memWrite_quiet (s : State) (x : Word) (v : Byte) (h : s.Quiet) :
    s.memWrite x v = (s.store x v).log .memWrite (some x) (some v) 3 0 := by
  simp only [State.memWrite, State.gap_quiet s h]

/-- A quiet I/O write: only the record of bus cycles grows (R61). -/
theorem State.ioWrite_quiet (s : State) (port v : Byte) (h : s.Quiet) :
    s.ioWrite port v = s.log .ioWrite (some (pair port port)) (some v) 3 0 := by
  simp only [State.ioWrite, State.gap_quiet s h]

/-- A quiet I/O read. -/
theorem State.ioRead_quiet (s : State) (port : Byte) (h : s.Quiet) :
    s.ioRead port = (s.env.ioAnswer.1,
      { s with env := s.env.ioAnswer.2 }.log .ioRead (some (pair port port)) (some s.env.ioAnswer.1) 3 0) := by
  simp only [State.ioRead, State.gap_quiet s h]

/-- A quiet INTA cycle. -/
theorem State.intaRead_quiet (s : State) (n : Nat) (h : s.Quiet) :
    s.intaRead n = (s.env.intaAnswer.1,
      { s with env := s.env.intaAnswer.2 }.log .intAck (some s.pc) (some s.env.intaAnswer.1) n 0) := by
  simp only [State.intaRead, State.gap_quiet s h]

/-- A quiet two-byte read. -/
theorem State.memRead16_quiet (s : State) (x : Word) (h : s.Quiet) :
    s.memRead16 x = (pair (s.reads2 x (x + 1)).2 (s.reads2 x (x + 1)).1,
      (((s.sample x).2.sample (x + 1)).2.log .memRead (some x) (some (s.reads2 x (x + 1)).1) 3 0).log
        .memRead (some (x + 1)) (some (s.reads2 x (x + 1)).2) 3 0) := by
  have h2 : ((s.sample x).2.log .memRead (some x) (some (s.sample x).1) 3 0).Quiet := by simpa [State.Quiet] using h
  simp only [State.memRead16, State.memRead_quiet s x h, State.memRead_quiet _ (x + 1) h2, State.sample_log, State.reads2]

/-- A quiet push. -/
theorem State.push16_quiet (s : State) (v : Word) (h : s.Quiet) :
    s.push16 v = { ((s.store (s.sp - 1) (hiByte v)).log .memWrite (some (s.sp - 1)) (some (hiByte v)) 3 0).store
        (s.sp - 2) (loByte v) |>.log .memWrite (some (s.sp - 2)) (some (loByte v)) 3 0 with sp := s.sp - 2 } := by
  have h2 : ((s.store (s.sp - 1) (hiByte v)).log .memWrite (some (s.sp - 1)) (some (hiByte v)) 3 0).Quiet := by
    simpa [State.Quiet] using h
  simp only [State.push16, State.memWrite_quiet s _ _ h, State.memWrite_quiet _ _ _ h2]

/-! ### What the environment cannot touch -/

/-- The part of the state that nothing between bus transfers changes: memory, the RST 7.5 and TRAP latches, HLDA, the pins but
RESET IN, the environment's own data and the record of bus cycles are put to fixed values. -/
def State.chip (s : State) : State :=
  { s with
    mem := [], bus := [], env := ⟨[], [], [], [], [], [], 0⟩, r75 := false, trapFF := false, hlda := false
    pins := ⟨false, false, false, false, false, false, false, s.pins.resetIn⟩ }

@[simp] theorem State.chip_log (s : State) (k : CycleKind) (x : Option Word) (v : Option Byte) (n w : Nat) :
    (s.log k x v n w).chip = s.chip := rfl

@[simp] theorem State.chip_env (s : State) (v : Env) : ({ s with env := v } : State).chip = s.chip := rfl

@[simp] theorem State.chip_endHold (s : State) : s.endHold.chip = s.chip := rfl

@[simp] theorem State.chip_store (s : State) (x : Word) (v : Byte) : (s.store x v).chip = s.chip := by
  unfold State.store; split <;> rfl

@[simp] theorem State.chip_sample (s : State) (x : Word) : (s.sample x).2.chip = s.chip := by
  unfold State.sample; split <;> rfl

@[simp] theorem State.chip_setPin (s : State) (p : Pin) (b : Bool) : (s.setPin p b).chip = s.chip := by
  cases p <;> rfl

@[simp] theorem State.chip_event (s : State) (e : Event) : (s.event e).chip = s.chip := by
  cases e with
  | pin p b => exact State.chip_setPin s p b
  | dma x v => simp only [State.event]; split
               · exact State.chip_store s x v
               · rfl

@[simp] theorem State.chip_events (s : State) (es : List Event) : (s.events es).chip = s.chip := by
  induction es generalizing s with
  | nil => rfl
  | cons e es ih => simp only [State.events, ih, State.chip_event]

@[simp] theorem State.chip_gap (s : State) : s.gap.1.chip = s.chip := by
  unfold State.gap; split
  · rfl
  · simp

@[simp] theorem State.chip_memRead (s : State) (x : Word) : (s.memRead x).2.chip = s.chip := by simp [State.memRead]
@[simp] theorem State.chip_opFetch (s : State) : s.opFetch.2.chip = s.chip := by simp [State.opFetch]
@[simp] theorem State.chip_memWrite (s : State) (x : Word) (v : Byte) : (s.memWrite x v).chip = s.chip := by
  simp [State.memWrite]
@[simp] theorem State.chip_ioRead (s : State) (p : Byte) : (s.ioRead p).2.chip = s.chip := by simp [State.ioRead]
@[simp] theorem State.chip_ioWrite (s : State) (p v : Byte) : (s.ioWrite p v).chip = s.chip := by simp [State.ioWrite]
@[simp] theorem State.chip_intaRead (s : State) (n : Nat) : (s.intaRead n).2.chip = s.chip := by simp [State.intaRead]
@[simp] theorem State.chip_idle (s : State) (k : CycleKind) (n : Nat) : (s.idle k n).chip = s.chip := rfl
@[simp] theorem State.chip_memRead16 (s : State) (x : Word) : (s.memRead16 x).2.chip = s.chip := by simp [State.memRead16]
@[simp] theorem State.chip_memWrite16 (s : State) (x v : Word) : (s.memWrite16 x v).chip = s.chip := by
  simp [State.memWrite16]

/-! Fields of two states with the same `chip`. -/

theorem State.chip_eq_a {s t : State} (h : t.chip = s.chip) : t.a = s.a := show t.chip.a = s.chip.a by rw [h]
theorem State.chip_eq_b {s t : State} (h : t.chip = s.chip) : t.b = s.b := show t.chip.b = s.chip.b by rw [h]
theorem State.chip_eq_c {s t : State} (h : t.chip = s.chip) : t.c = s.c := show t.chip.c = s.chip.c by rw [h]
theorem State.chip_eq_d {s t : State} (h : t.chip = s.chip) : t.d = s.d := show t.chip.d = s.chip.d by rw [h]
theorem State.chip_eq_e {s t : State} (h : t.chip = s.chip) : t.e = s.e := show t.chip.e = s.chip.e by rw [h]
theorem State.chip_eq_h {s t : State} (h : t.chip = s.chip) : t.h = s.h := show t.chip.h = s.chip.h by rw [h]
theorem State.chip_eq_l {s t : State} (h : t.chip = s.chip) : t.l = s.l := show t.chip.l = s.chip.l by rw [h]
theorem State.chip_eq_flags {s t : State} (h : t.chip = s.chip) : t.flags = s.flags := show t.chip.flags = s.chip.flags by rw [h]
theorem State.chip_eq_sp {s t : State} (h : t.chip = s.chip) : t.sp = s.sp := show t.chip.sp = s.chip.sp by rw [h]
theorem State.chip_eq_pc {s t : State} (h : t.chip = s.chip) : t.pc = s.pc := show t.chip.pc = s.chip.pc by rw [h]
theorem State.chip_eq_ie {s t : State} (h : t.chip = s.chip) : t.ie = s.ie := show t.chip.ie = s.chip.ie by rw [h]
theorem State.chip_eq_m55 {s t : State} (h : t.chip = s.chip) : t.m55 = s.m55 := show t.chip.m55 = s.chip.m55 by rw [h]
theorem State.chip_eq_m65 {s t : State} (h : t.chip = s.chip) : t.m65 = s.m65 := show t.chip.m65 = s.chip.m65 by rw [h]
theorem State.chip_eq_m75 {s t : State} (h : t.chip = s.chip) : t.m75 = s.m75 := show t.chip.m75 = s.chip.m75 by rw [h]
theorem State.chip_eq_trapIE {s t : State} (h : t.chip = s.chip) : t.trapIE = s.trapIE := show t.chip.trapIE = s.chip.trapIE by rw [h]
theorem State.chip_eq_trapRIM {s t : State} (h : t.chip = s.chip) : t.trapRIM = s.trapRIM := show t.chip.trapRIM = s.chip.trapRIM by rw [h]
theorem State.chip_eq_inhibit {s t : State} (h : t.chip = s.chip) : t.inhibit = s.inhibit := show t.chip.inhibit = s.chip.inhibit by rw [h]
theorem State.chip_eq_starting {s t : State} (h : t.chip = s.chip) : t.starting = s.starting := show t.chip.starting = s.chip.starting by rw [h]
theorem State.chip_eq_sod {s t : State} (h : t.chip = s.chip) : t.sod = s.sod := show t.chip.sod = s.chip.sod by rw [h]
theorem State.chip_eq_halted {s t : State} (h : t.chip = s.chip) : t.halted = s.halted := show t.chip.halted = s.chip.halted by rw [h]
theorem State.chip_eq_map {s t : State} (h : t.chip = s.chip) : t.map = s.map := show t.chip.map = s.chip.map by rw [h]
theorem State.chip_eq_anaAc {s t : State} (h : t.chip = s.chip) : t.anaAc = s.anaAc := show t.chip.anaAc = s.chip.anaAc by rw [h]
theorem State.chip_eq_resetIn {s t : State} (h : t.chip = s.chip) : t.pins.resetIn = s.pins.resetIn :=
  show t.chip.pins.resetIn = s.chip.pins.resetIn by rw [h]

@[simp] theorem State.memRead_a (s : State) (x : Word) : (s.memRead x).2.a = s.a := State.chip_eq_a (by simp)
@[simp] theorem State.memRead_b (s : State) (x : Word) : (s.memRead x).2.b = s.b := State.chip_eq_b (by simp)
@[simp] theorem State.memRead_c (s : State) (x : Word) : (s.memRead x).2.c = s.c := State.chip_eq_c (by simp)
@[simp] theorem State.memRead_d (s : State) (x : Word) : (s.memRead x).2.d = s.d := State.chip_eq_d (by simp)
@[simp] theorem State.memRead_e (s : State) (x : Word) : (s.memRead x).2.e = s.e := State.chip_eq_e (by simp)
@[simp] theorem State.memRead_h (s : State) (x : Word) : (s.memRead x).2.h = s.h := State.chip_eq_h (by simp)
@[simp] theorem State.memRead_l (s : State) (x : Word) : (s.memRead x).2.l = s.l := State.chip_eq_l (by simp)
@[simp] theorem State.memRead_flags (s : State) (x : Word) : (s.memRead x).2.flags = s.flags := State.chip_eq_flags (by simp)
@[simp] theorem State.memRead_sp (s : State) (x : Word) : (s.memRead x).2.sp = s.sp := State.chip_eq_sp (by simp)
@[simp] theorem State.memRead_pc (s : State) (x : Word) : (s.memRead x).2.pc = s.pc := State.chip_eq_pc (by simp)
@[simp] theorem State.memRead_ie (s : State) (x : Word) : (s.memRead x).2.ie = s.ie := State.chip_eq_ie (by simp)
@[simp] theorem State.memRead_m55 (s : State) (x : Word) : (s.memRead x).2.m55 = s.m55 := State.chip_eq_m55 (by simp)
@[simp] theorem State.memRead_m65 (s : State) (x : Word) : (s.memRead x).2.m65 = s.m65 := State.chip_eq_m65 (by simp)
@[simp] theorem State.memRead_m75 (s : State) (x : Word) : (s.memRead x).2.m75 = s.m75 := State.chip_eq_m75 (by simp)
@[simp] theorem State.memRead_trapIE (s : State) (x : Word) : (s.memRead x).2.trapIE = s.trapIE := State.chip_eq_trapIE (by simp)
@[simp] theorem State.memRead_trapRIM (s : State) (x : Word) : (s.memRead x).2.trapRIM = s.trapRIM := State.chip_eq_trapRIM (by simp)
@[simp] theorem State.memRead_inhibit (s : State) (x : Word) : (s.memRead x).2.inhibit = s.inhibit := State.chip_eq_inhibit (by simp)
@[simp] theorem State.memRead_starting (s : State) (x : Word) : (s.memRead x).2.starting = s.starting := State.chip_eq_starting (by simp)
@[simp] theorem State.memRead_sod (s : State) (x : Word) : (s.memRead x).2.sod = s.sod := State.chip_eq_sod (by simp)
@[simp] theorem State.memRead_halted (s : State) (x : Word) : (s.memRead x).2.halted = s.halted := State.chip_eq_halted (by simp)
@[simp] theorem State.memRead_map (s : State) (x : Word) : (s.memRead x).2.map = s.map := State.chip_eq_map (by simp)
@[simp] theorem State.memRead_anaAc (s : State) (x : Word) : (s.memRead x).2.anaAc = s.anaAc := State.chip_eq_anaAc (by simp)

@[simp] theorem State.memWrite_a (s : State) (x : Word) (v : Byte) : (s.memWrite x v).a = s.a := State.chip_eq_a (by simp)
@[simp] theorem State.memWrite_b (s : State) (x : Word) (v : Byte) : (s.memWrite x v).b = s.b := State.chip_eq_b (by simp)
@[simp] theorem State.memWrite_c (s : State) (x : Word) (v : Byte) : (s.memWrite x v).c = s.c := State.chip_eq_c (by simp)
@[simp] theorem State.memWrite_d (s : State) (x : Word) (v : Byte) : (s.memWrite x v).d = s.d := State.chip_eq_d (by simp)
@[simp] theorem State.memWrite_e (s : State) (x : Word) (v : Byte) : (s.memWrite x v).e = s.e := State.chip_eq_e (by simp)
@[simp] theorem State.memWrite_h (s : State) (x : Word) (v : Byte) : (s.memWrite x v).h = s.h := State.chip_eq_h (by simp)
@[simp] theorem State.memWrite_l (s : State) (x : Word) (v : Byte) : (s.memWrite x v).l = s.l := State.chip_eq_l (by simp)
@[simp] theorem State.memWrite_flags (s : State) (x : Word) (v : Byte) : (s.memWrite x v).flags = s.flags := State.chip_eq_flags (by simp)
@[simp] theorem State.memWrite_sp (s : State) (x : Word) (v : Byte) : (s.memWrite x v).sp = s.sp := State.chip_eq_sp (by simp)
@[simp] theorem State.memWrite_pc (s : State) (x : Word) (v : Byte) : (s.memWrite x v).pc = s.pc := State.chip_eq_pc (by simp)
@[simp] theorem State.memWrite_ie (s : State) (x : Word) (v : Byte) : (s.memWrite x v).ie = s.ie := State.chip_eq_ie (by simp)
@[simp] theorem State.memWrite_m55 (s : State) (x : Word) (v : Byte) : (s.memWrite x v).m55 = s.m55 := State.chip_eq_m55 (by simp)
@[simp] theorem State.memWrite_m65 (s : State) (x : Word) (v : Byte) : (s.memWrite x v).m65 = s.m65 := State.chip_eq_m65 (by simp)
@[simp] theorem State.memWrite_m75 (s : State) (x : Word) (v : Byte) : (s.memWrite x v).m75 = s.m75 := State.chip_eq_m75 (by simp)
@[simp] theorem State.memWrite_trapIE (s : State) (x : Word) (v : Byte) : (s.memWrite x v).trapIE = s.trapIE := State.chip_eq_trapIE (by simp)
@[simp] theorem State.memWrite_trapRIM (s : State) (x : Word) (v : Byte) : (s.memWrite x v).trapRIM = s.trapRIM := State.chip_eq_trapRIM (by simp)
@[simp] theorem State.memWrite_inhibit (s : State) (x : Word) (v : Byte) : (s.memWrite x v).inhibit = s.inhibit := State.chip_eq_inhibit (by simp)
@[simp] theorem State.memWrite_starting (s : State) (x : Word) (v : Byte) : (s.memWrite x v).starting = s.starting := State.chip_eq_starting (by simp)
@[simp] theorem State.memWrite_sod (s : State) (x : Word) (v : Byte) : (s.memWrite x v).sod = s.sod := State.chip_eq_sod (by simp)
@[simp] theorem State.memWrite_halted (s : State) (x : Word) (v : Byte) : (s.memWrite x v).halted = s.halted := State.chip_eq_halted (by simp)
@[simp] theorem State.memWrite_map (s : State) (x : Word) (v : Byte) : (s.memWrite x v).map = s.map := State.chip_eq_map (by simp)
@[simp] theorem State.memWrite_anaAc (s : State) (x : Word) (v : Byte) : (s.memWrite x v).anaAc = s.anaAc := State.chip_eq_anaAc (by simp)

@[simp] theorem State.memRead16_a (s : State) (x : Word) : (s.memRead16 x).2.a = s.a := State.chip_eq_a (by simp)
@[simp] theorem State.memRead16_b (s : State) (x : Word) : (s.memRead16 x).2.b = s.b := State.chip_eq_b (by simp)
@[simp] theorem State.memRead16_c (s : State) (x : Word) : (s.memRead16 x).2.c = s.c := State.chip_eq_c (by simp)
@[simp] theorem State.memRead16_d (s : State) (x : Word) : (s.memRead16 x).2.d = s.d := State.chip_eq_d (by simp)
@[simp] theorem State.memRead16_e (s : State) (x : Word) : (s.memRead16 x).2.e = s.e := State.chip_eq_e (by simp)
@[simp] theorem State.memRead16_h (s : State) (x : Word) : (s.memRead16 x).2.h = s.h := State.chip_eq_h (by simp)
@[simp] theorem State.memRead16_l (s : State) (x : Word) : (s.memRead16 x).2.l = s.l := State.chip_eq_l (by simp)
@[simp] theorem State.memRead16_flags (s : State) (x : Word) : (s.memRead16 x).2.flags = s.flags := State.chip_eq_flags (by simp)
@[simp] theorem State.memRead16_sp (s : State) (x : Word) : (s.memRead16 x).2.sp = s.sp := State.chip_eq_sp (by simp)
@[simp] theorem State.memRead16_pc (s : State) (x : Word) : (s.memRead16 x).2.pc = s.pc := State.chip_eq_pc (by simp)
@[simp] theorem State.memRead16_ie (s : State) (x : Word) : (s.memRead16 x).2.ie = s.ie := State.chip_eq_ie (by simp)
@[simp] theorem State.memRead16_m55 (s : State) (x : Word) : (s.memRead16 x).2.m55 = s.m55 := State.chip_eq_m55 (by simp)
@[simp] theorem State.memRead16_m65 (s : State) (x : Word) : (s.memRead16 x).2.m65 = s.m65 := State.chip_eq_m65 (by simp)
@[simp] theorem State.memRead16_m75 (s : State) (x : Word) : (s.memRead16 x).2.m75 = s.m75 := State.chip_eq_m75 (by simp)
@[simp] theorem State.memRead16_trapIE (s : State) (x : Word) : (s.memRead16 x).2.trapIE = s.trapIE := State.chip_eq_trapIE (by simp)
@[simp] theorem State.memRead16_trapRIM (s : State) (x : Word) : (s.memRead16 x).2.trapRIM = s.trapRIM := State.chip_eq_trapRIM (by simp)
@[simp] theorem State.memRead16_inhibit (s : State) (x : Word) : (s.memRead16 x).2.inhibit = s.inhibit := State.chip_eq_inhibit (by simp)
@[simp] theorem State.memRead16_starting (s : State) (x : Word) : (s.memRead16 x).2.starting = s.starting := State.chip_eq_starting (by simp)
@[simp] theorem State.memRead16_sod (s : State) (x : Word) : (s.memRead16 x).2.sod = s.sod := State.chip_eq_sod (by simp)
@[simp] theorem State.memRead16_halted (s : State) (x : Word) : (s.memRead16 x).2.halted = s.halted := State.chip_eq_halted (by simp)
@[simp] theorem State.memRead16_map (s : State) (x : Word) : (s.memRead16 x).2.map = s.map := State.chip_eq_map (by simp)
@[simp] theorem State.memRead16_anaAc (s : State) (x : Word) : (s.memRead16 x).2.anaAc = s.anaAc := State.chip_eq_anaAc (by simp)

@[simp] theorem State.memWrite16_a (s : State) (x w : Word) : (s.memWrite16 x w).a = s.a := State.chip_eq_a (by simp)
@[simp] theorem State.memWrite16_b (s : State) (x w : Word) : (s.memWrite16 x w).b = s.b := State.chip_eq_b (by simp)
@[simp] theorem State.memWrite16_c (s : State) (x w : Word) : (s.memWrite16 x w).c = s.c := State.chip_eq_c (by simp)
@[simp] theorem State.memWrite16_d (s : State) (x w : Word) : (s.memWrite16 x w).d = s.d := State.chip_eq_d (by simp)
@[simp] theorem State.memWrite16_e (s : State) (x w : Word) : (s.memWrite16 x w).e = s.e := State.chip_eq_e (by simp)
@[simp] theorem State.memWrite16_h (s : State) (x w : Word) : (s.memWrite16 x w).h = s.h := State.chip_eq_h (by simp)
@[simp] theorem State.memWrite16_l (s : State) (x w : Word) : (s.memWrite16 x w).l = s.l := State.chip_eq_l (by simp)
@[simp] theorem State.memWrite16_flags (s : State) (x w : Word) : (s.memWrite16 x w).flags = s.flags := State.chip_eq_flags (by simp)
@[simp] theorem State.memWrite16_sp (s : State) (x w : Word) : (s.memWrite16 x w).sp = s.sp := State.chip_eq_sp (by simp)
@[simp] theorem State.memWrite16_pc (s : State) (x w : Word) : (s.memWrite16 x w).pc = s.pc := State.chip_eq_pc (by simp)
@[simp] theorem State.memWrite16_ie (s : State) (x w : Word) : (s.memWrite16 x w).ie = s.ie := State.chip_eq_ie (by simp)
@[simp] theorem State.memWrite16_m55 (s : State) (x w : Word) : (s.memWrite16 x w).m55 = s.m55 := State.chip_eq_m55 (by simp)
@[simp] theorem State.memWrite16_m65 (s : State) (x w : Word) : (s.memWrite16 x w).m65 = s.m65 := State.chip_eq_m65 (by simp)
@[simp] theorem State.memWrite16_m75 (s : State) (x w : Word) : (s.memWrite16 x w).m75 = s.m75 := State.chip_eq_m75 (by simp)
@[simp] theorem State.memWrite16_trapIE (s : State) (x w : Word) : (s.memWrite16 x w).trapIE = s.trapIE := State.chip_eq_trapIE (by simp)
@[simp] theorem State.memWrite16_trapRIM (s : State) (x w : Word) : (s.memWrite16 x w).trapRIM = s.trapRIM := State.chip_eq_trapRIM (by simp)
@[simp] theorem State.memWrite16_inhibit (s : State) (x w : Word) : (s.memWrite16 x w).inhibit = s.inhibit := State.chip_eq_inhibit (by simp)
@[simp] theorem State.memWrite16_starting (s : State) (x w : Word) : (s.memWrite16 x w).starting = s.starting := State.chip_eq_starting (by simp)
@[simp] theorem State.memWrite16_sod (s : State) (x w : Word) : (s.memWrite16 x w).sod = s.sod := State.chip_eq_sod (by simp)
@[simp] theorem State.memWrite16_halted (s : State) (x w : Word) : (s.memWrite16 x w).halted = s.halted := State.chip_eq_halted (by simp)
@[simp] theorem State.memWrite16_map (s : State) (x w : Word) : (s.memWrite16 x w).map = s.map := State.chip_eq_map (by simp)
@[simp] theorem State.memWrite16_anaAc (s : State) (x w : Word) : (s.memWrite16 x w).anaAc = s.anaAc := State.chip_eq_anaAc (by simp)

@[simp] theorem State.ioRead_a (s : State) (v : Byte) : (s.ioRead v).2.a = s.a := State.chip_eq_a (by simp)
@[simp] theorem State.ioRead_b (s : State) (v : Byte) : (s.ioRead v).2.b = s.b := State.chip_eq_b (by simp)
@[simp] theorem State.ioRead_c (s : State) (v : Byte) : (s.ioRead v).2.c = s.c := State.chip_eq_c (by simp)
@[simp] theorem State.ioRead_d (s : State) (v : Byte) : (s.ioRead v).2.d = s.d := State.chip_eq_d (by simp)
@[simp] theorem State.ioRead_e (s : State) (v : Byte) : (s.ioRead v).2.e = s.e := State.chip_eq_e (by simp)
@[simp] theorem State.ioRead_h (s : State) (v : Byte) : (s.ioRead v).2.h = s.h := State.chip_eq_h (by simp)
@[simp] theorem State.ioRead_l (s : State) (v : Byte) : (s.ioRead v).2.l = s.l := State.chip_eq_l (by simp)
@[simp] theorem State.ioRead_flags (s : State) (v : Byte) : (s.ioRead v).2.flags = s.flags := State.chip_eq_flags (by simp)
@[simp] theorem State.ioRead_sp (s : State) (v : Byte) : (s.ioRead v).2.sp = s.sp := State.chip_eq_sp (by simp)
@[simp] theorem State.ioRead_pc (s : State) (v : Byte) : (s.ioRead v).2.pc = s.pc := State.chip_eq_pc (by simp)
@[simp] theorem State.ioRead_ie (s : State) (v : Byte) : (s.ioRead v).2.ie = s.ie := State.chip_eq_ie (by simp)
@[simp] theorem State.ioRead_m55 (s : State) (v : Byte) : (s.ioRead v).2.m55 = s.m55 := State.chip_eq_m55 (by simp)
@[simp] theorem State.ioRead_m65 (s : State) (v : Byte) : (s.ioRead v).2.m65 = s.m65 := State.chip_eq_m65 (by simp)
@[simp] theorem State.ioRead_m75 (s : State) (v : Byte) : (s.ioRead v).2.m75 = s.m75 := State.chip_eq_m75 (by simp)
@[simp] theorem State.ioRead_trapIE (s : State) (v : Byte) : (s.ioRead v).2.trapIE = s.trapIE := State.chip_eq_trapIE (by simp)
@[simp] theorem State.ioRead_trapRIM (s : State) (v : Byte) : (s.ioRead v).2.trapRIM = s.trapRIM := State.chip_eq_trapRIM (by simp)
@[simp] theorem State.ioRead_inhibit (s : State) (v : Byte) : (s.ioRead v).2.inhibit = s.inhibit := State.chip_eq_inhibit (by simp)
@[simp] theorem State.ioRead_starting (s : State) (v : Byte) : (s.ioRead v).2.starting = s.starting := State.chip_eq_starting (by simp)
@[simp] theorem State.ioRead_sod (s : State) (v : Byte) : (s.ioRead v).2.sod = s.sod := State.chip_eq_sod (by simp)
@[simp] theorem State.ioRead_halted (s : State) (v : Byte) : (s.ioRead v).2.halted = s.halted := State.chip_eq_halted (by simp)
@[simp] theorem State.ioRead_map (s : State) (v : Byte) : (s.ioRead v).2.map = s.map := State.chip_eq_map (by simp)
@[simp] theorem State.ioRead_anaAc (s : State) (v : Byte) : (s.ioRead v).2.anaAc = s.anaAc := State.chip_eq_anaAc (by simp)

@[simp] theorem State.ioWrite_a (s : State) (v v2 : Byte) : (s.ioWrite v v2).a = s.a := State.chip_eq_a (by simp)
@[simp] theorem State.ioWrite_b (s : State) (v v2 : Byte) : (s.ioWrite v v2).b = s.b := State.chip_eq_b (by simp)
@[simp] theorem State.ioWrite_c (s : State) (v v2 : Byte) : (s.ioWrite v v2).c = s.c := State.chip_eq_c (by simp)
@[simp] theorem State.ioWrite_d (s : State) (v v2 : Byte) : (s.ioWrite v v2).d = s.d := State.chip_eq_d (by simp)
@[simp] theorem State.ioWrite_e (s : State) (v v2 : Byte) : (s.ioWrite v v2).e = s.e := State.chip_eq_e (by simp)
@[simp] theorem State.ioWrite_h (s : State) (v v2 : Byte) : (s.ioWrite v v2).h = s.h := State.chip_eq_h (by simp)
@[simp] theorem State.ioWrite_l (s : State) (v v2 : Byte) : (s.ioWrite v v2).l = s.l := State.chip_eq_l (by simp)
@[simp] theorem State.ioWrite_flags (s : State) (v v2 : Byte) : (s.ioWrite v v2).flags = s.flags := State.chip_eq_flags (by simp)
@[simp] theorem State.ioWrite_sp (s : State) (v v2 : Byte) : (s.ioWrite v v2).sp = s.sp := State.chip_eq_sp (by simp)
@[simp] theorem State.ioWrite_pc (s : State) (v v2 : Byte) : (s.ioWrite v v2).pc = s.pc := State.chip_eq_pc (by simp)
@[simp] theorem State.ioWrite_ie (s : State) (v v2 : Byte) : (s.ioWrite v v2).ie = s.ie := State.chip_eq_ie (by simp)
@[simp] theorem State.ioWrite_m55 (s : State) (v v2 : Byte) : (s.ioWrite v v2).m55 = s.m55 := State.chip_eq_m55 (by simp)
@[simp] theorem State.ioWrite_m65 (s : State) (v v2 : Byte) : (s.ioWrite v v2).m65 = s.m65 := State.chip_eq_m65 (by simp)
@[simp] theorem State.ioWrite_m75 (s : State) (v v2 : Byte) : (s.ioWrite v v2).m75 = s.m75 := State.chip_eq_m75 (by simp)
@[simp] theorem State.ioWrite_trapIE (s : State) (v v2 : Byte) : (s.ioWrite v v2).trapIE = s.trapIE := State.chip_eq_trapIE (by simp)
@[simp] theorem State.ioWrite_trapRIM (s : State) (v v2 : Byte) : (s.ioWrite v v2).trapRIM = s.trapRIM := State.chip_eq_trapRIM (by simp)
@[simp] theorem State.ioWrite_inhibit (s : State) (v v2 : Byte) : (s.ioWrite v v2).inhibit = s.inhibit := State.chip_eq_inhibit (by simp)
@[simp] theorem State.ioWrite_starting (s : State) (v v2 : Byte) : (s.ioWrite v v2).starting = s.starting := State.chip_eq_starting (by simp)
@[simp] theorem State.ioWrite_sod (s : State) (v v2 : Byte) : (s.ioWrite v v2).sod = s.sod := State.chip_eq_sod (by simp)
@[simp] theorem State.ioWrite_halted (s : State) (v v2 : Byte) : (s.ioWrite v v2).halted = s.halted := State.chip_eq_halted (by simp)
@[simp] theorem State.ioWrite_map (s : State) (v v2 : Byte) : (s.ioWrite v v2).map = s.map := State.chip_eq_map (by simp)
@[simp] theorem State.ioWrite_anaAc (s : State) (v v2 : Byte) : (s.ioWrite v v2).anaAc = s.anaAc := State.chip_eq_anaAc (by simp)

@[simp] theorem State.opFetch_a (s : State) : s.opFetch.2.a = s.a := State.chip_eq_a (by simp)
@[simp] theorem State.opFetch_b (s : State) : s.opFetch.2.b = s.b := State.chip_eq_b (by simp)
@[simp] theorem State.opFetch_c (s : State) : s.opFetch.2.c = s.c := State.chip_eq_c (by simp)
@[simp] theorem State.opFetch_d (s : State) : s.opFetch.2.d = s.d := State.chip_eq_d (by simp)
@[simp] theorem State.opFetch_e (s : State) : s.opFetch.2.e = s.e := State.chip_eq_e (by simp)
@[simp] theorem State.opFetch_h (s : State) : s.opFetch.2.h = s.h := State.chip_eq_h (by simp)
@[simp] theorem State.opFetch_l (s : State) : s.opFetch.2.l = s.l := State.chip_eq_l (by simp)
@[simp] theorem State.opFetch_flags (s : State) : s.opFetch.2.flags = s.flags := State.chip_eq_flags (by simp)
@[simp] theorem State.opFetch_sp (s : State) : s.opFetch.2.sp = s.sp := State.chip_eq_sp (by simp)
@[simp] theorem State.opFetch_pc (s : State) : s.opFetch.2.pc = s.pc := State.chip_eq_pc (by simp)
@[simp] theorem State.opFetch_ie (s : State) : s.opFetch.2.ie = s.ie := State.chip_eq_ie (by simp)
@[simp] theorem State.opFetch_m55 (s : State) : s.opFetch.2.m55 = s.m55 := State.chip_eq_m55 (by simp)
@[simp] theorem State.opFetch_m65 (s : State) : s.opFetch.2.m65 = s.m65 := State.chip_eq_m65 (by simp)
@[simp] theorem State.opFetch_m75 (s : State) : s.opFetch.2.m75 = s.m75 := State.chip_eq_m75 (by simp)
@[simp] theorem State.opFetch_trapIE (s : State) : s.opFetch.2.trapIE = s.trapIE := State.chip_eq_trapIE (by simp)
@[simp] theorem State.opFetch_trapRIM (s : State) : s.opFetch.2.trapRIM = s.trapRIM := State.chip_eq_trapRIM (by simp)
@[simp] theorem State.opFetch_inhibit (s : State) : s.opFetch.2.inhibit = s.inhibit := State.chip_eq_inhibit (by simp)
@[simp] theorem State.opFetch_starting (s : State) : s.opFetch.2.starting = s.starting := State.chip_eq_starting (by simp)
@[simp] theorem State.opFetch_sod (s : State) : s.opFetch.2.sod = s.sod := State.chip_eq_sod (by simp)
@[simp] theorem State.opFetch_halted (s : State) : s.opFetch.2.halted = s.halted := State.chip_eq_halted (by simp)
@[simp] theorem State.opFetch_map (s : State) : s.opFetch.2.map = s.map := State.chip_eq_map (by simp)
@[simp] theorem State.opFetch_anaAc (s : State) : s.opFetch.2.anaAc = s.anaAc := State.chip_eq_anaAc (by simp)

@[simp] theorem State.intaRead_a (s : State) (n : Nat) : (s.intaRead n).2.a = s.a := State.chip_eq_a (by simp)
@[simp] theorem State.intaRead_b (s : State) (n : Nat) : (s.intaRead n).2.b = s.b := State.chip_eq_b (by simp)
@[simp] theorem State.intaRead_c (s : State) (n : Nat) : (s.intaRead n).2.c = s.c := State.chip_eq_c (by simp)
@[simp] theorem State.intaRead_d (s : State) (n : Nat) : (s.intaRead n).2.d = s.d := State.chip_eq_d (by simp)
@[simp] theorem State.intaRead_e (s : State) (n : Nat) : (s.intaRead n).2.e = s.e := State.chip_eq_e (by simp)
@[simp] theorem State.intaRead_h (s : State) (n : Nat) : (s.intaRead n).2.h = s.h := State.chip_eq_h (by simp)
@[simp] theorem State.intaRead_l (s : State) (n : Nat) : (s.intaRead n).2.l = s.l := State.chip_eq_l (by simp)
@[simp] theorem State.intaRead_flags (s : State) (n : Nat) : (s.intaRead n).2.flags = s.flags := State.chip_eq_flags (by simp)
@[simp] theorem State.intaRead_sp (s : State) (n : Nat) : (s.intaRead n).2.sp = s.sp := State.chip_eq_sp (by simp)
@[simp] theorem State.intaRead_pc (s : State) (n : Nat) : (s.intaRead n).2.pc = s.pc := State.chip_eq_pc (by simp)
@[simp] theorem State.intaRead_ie (s : State) (n : Nat) : (s.intaRead n).2.ie = s.ie := State.chip_eq_ie (by simp)
@[simp] theorem State.intaRead_m55 (s : State) (n : Nat) : (s.intaRead n).2.m55 = s.m55 := State.chip_eq_m55 (by simp)
@[simp] theorem State.intaRead_m65 (s : State) (n : Nat) : (s.intaRead n).2.m65 = s.m65 := State.chip_eq_m65 (by simp)
@[simp] theorem State.intaRead_m75 (s : State) (n : Nat) : (s.intaRead n).2.m75 = s.m75 := State.chip_eq_m75 (by simp)
@[simp] theorem State.intaRead_trapIE (s : State) (n : Nat) : (s.intaRead n).2.trapIE = s.trapIE := State.chip_eq_trapIE (by simp)
@[simp] theorem State.intaRead_trapRIM (s : State) (n : Nat) : (s.intaRead n).2.trapRIM = s.trapRIM := State.chip_eq_trapRIM (by simp)
@[simp] theorem State.intaRead_inhibit (s : State) (n : Nat) : (s.intaRead n).2.inhibit = s.inhibit := State.chip_eq_inhibit (by simp)
@[simp] theorem State.intaRead_starting (s : State) (n : Nat) : (s.intaRead n).2.starting = s.starting := State.chip_eq_starting (by simp)
@[simp] theorem State.intaRead_sod (s : State) (n : Nat) : (s.intaRead n).2.sod = s.sod := State.chip_eq_sod (by simp)
@[simp] theorem State.intaRead_halted (s : State) (n : Nat) : (s.intaRead n).2.halted = s.halted := State.chip_eq_halted (by simp)
@[simp] theorem State.intaRead_map (s : State) (n : Nat) : (s.intaRead n).2.map = s.map := State.chip_eq_map (by simp)
@[simp] theorem State.intaRead_anaAc (s : State) (n : Nat) : (s.intaRead n).2.anaAc = s.anaAc := State.chip_eq_anaAc (by simp)

@[simp] theorem State.gap_a (s : State) : s.gap.1.a = s.a := State.chip_eq_a (by simp)
@[simp] theorem State.gap_b (s : State) : s.gap.1.b = s.b := State.chip_eq_b (by simp)
@[simp] theorem State.gap_c (s : State) : s.gap.1.c = s.c := State.chip_eq_c (by simp)
@[simp] theorem State.gap_d (s : State) : s.gap.1.d = s.d := State.chip_eq_d (by simp)
@[simp] theorem State.gap_e (s : State) : s.gap.1.e = s.e := State.chip_eq_e (by simp)
@[simp] theorem State.gap_h (s : State) : s.gap.1.h = s.h := State.chip_eq_h (by simp)
@[simp] theorem State.gap_l (s : State) : s.gap.1.l = s.l := State.chip_eq_l (by simp)
@[simp] theorem State.gap_flags (s : State) : s.gap.1.flags = s.flags := State.chip_eq_flags (by simp)
@[simp] theorem State.gap_sp (s : State) : s.gap.1.sp = s.sp := State.chip_eq_sp (by simp)
@[simp] theorem State.gap_pc (s : State) : s.gap.1.pc = s.pc := State.chip_eq_pc (by simp)
@[simp] theorem State.gap_ie (s : State) : s.gap.1.ie = s.ie := State.chip_eq_ie (by simp)
@[simp] theorem State.gap_m55 (s : State) : s.gap.1.m55 = s.m55 := State.chip_eq_m55 (by simp)
@[simp] theorem State.gap_m65 (s : State) : s.gap.1.m65 = s.m65 := State.chip_eq_m65 (by simp)
@[simp] theorem State.gap_m75 (s : State) : s.gap.1.m75 = s.m75 := State.chip_eq_m75 (by simp)
@[simp] theorem State.gap_trapIE (s : State) : s.gap.1.trapIE = s.trapIE := State.chip_eq_trapIE (by simp)
@[simp] theorem State.gap_trapRIM (s : State) : s.gap.1.trapRIM = s.trapRIM := State.chip_eq_trapRIM (by simp)
@[simp] theorem State.gap_inhibit (s : State) : s.gap.1.inhibit = s.inhibit := State.chip_eq_inhibit (by simp)
@[simp] theorem State.gap_starting (s : State) : s.gap.1.starting = s.starting := State.chip_eq_starting (by simp)
@[simp] theorem State.gap_sod (s : State) : s.gap.1.sod = s.sod := State.chip_eq_sod (by simp)
@[simp] theorem State.gap_halted (s : State) : s.gap.1.halted = s.halted := State.chip_eq_halted (by simp)
@[simp] theorem State.gap_map (s : State) : s.gap.1.map = s.map := State.chip_eq_map (by simp)
@[simp] theorem State.gap_anaAc (s : State) : s.gap.1.anaAc = s.anaAc := State.chip_eq_anaAc (by simp)

@[simp] theorem State.push16_chip (s : State) (v : Word) : (s.push16 v).chip = { s.chip with sp := s.sp - 2 } := by
  have h : ∀ t : State, ({ t with sp := s.sp - 2 } : State).chip = { t.chip with sp := s.sp - 2 } := fun _ => rfl
  simp only [State.push16, h, State.chip_memWrite]

@[simp] theorem State.pop16_chip (s : State) : s.pop16.2.chip = { s.chip with sp := s.sp + 2 } := by
  have h : ∀ t : State, ({ t with sp := s.sp + 2 } : State).chip = { t.chip with sp := s.sp + 2 } := fun _ => rfl
  simp only [State.pop16, h, State.chip_memRead16]

@[simp] theorem State.push16_a (s : State) (v : Word) : (s.push16 v).a = s.a := by simp [State.push16]
@[simp] theorem State.pop16_a (s : State) : s.pop16.2.a = s.a := by simp [State.pop16]
@[simp] theorem State.push16_b (s : State) (v : Word) : (s.push16 v).b = s.b := by simp [State.push16]
@[simp] theorem State.pop16_b (s : State) : s.pop16.2.b = s.b := by simp [State.pop16]
@[simp] theorem State.push16_c (s : State) (v : Word) : (s.push16 v).c = s.c := by simp [State.push16]
@[simp] theorem State.pop16_c (s : State) : s.pop16.2.c = s.c := by simp [State.pop16]
@[simp] theorem State.push16_d (s : State) (v : Word) : (s.push16 v).d = s.d := by simp [State.push16]
@[simp] theorem State.pop16_d (s : State) : s.pop16.2.d = s.d := by simp [State.pop16]
@[simp] theorem State.push16_e (s : State) (v : Word) : (s.push16 v).e = s.e := by simp [State.push16]
@[simp] theorem State.pop16_e (s : State) : s.pop16.2.e = s.e := by simp [State.pop16]
@[simp] theorem State.push16_h (s : State) (v : Word) : (s.push16 v).h = s.h := by simp [State.push16]
@[simp] theorem State.pop16_h (s : State) : s.pop16.2.h = s.h := by simp [State.pop16]
@[simp] theorem State.push16_l (s : State) (v : Word) : (s.push16 v).l = s.l := by simp [State.push16]
@[simp] theorem State.pop16_l (s : State) : s.pop16.2.l = s.l := by simp [State.pop16]
@[simp] theorem State.push16_flags (s : State) (v : Word) : (s.push16 v).flags = s.flags := by simp [State.push16]
@[simp] theorem State.pop16_flags (s : State) : s.pop16.2.flags = s.flags := by simp [State.pop16]
@[simp] theorem State.push16_pc (s : State) (v : Word) : (s.push16 v).pc = s.pc := by simp [State.push16]
@[simp] theorem State.pop16_pc (s : State) : s.pop16.2.pc = s.pc := by simp [State.pop16]
@[simp] theorem State.push16_ie (s : State) (v : Word) : (s.push16 v).ie = s.ie := by simp [State.push16]
@[simp] theorem State.pop16_ie (s : State) : s.pop16.2.ie = s.ie := by simp [State.pop16]
@[simp] theorem State.push16_m55 (s : State) (v : Word) : (s.push16 v).m55 = s.m55 := by simp [State.push16]
@[simp] theorem State.pop16_m55 (s : State) : s.pop16.2.m55 = s.m55 := by simp [State.pop16]
@[simp] theorem State.push16_m65 (s : State) (v : Word) : (s.push16 v).m65 = s.m65 := by simp [State.push16]
@[simp] theorem State.pop16_m65 (s : State) : s.pop16.2.m65 = s.m65 := by simp [State.pop16]
@[simp] theorem State.push16_m75 (s : State) (v : Word) : (s.push16 v).m75 = s.m75 := by simp [State.push16]
@[simp] theorem State.pop16_m75 (s : State) : s.pop16.2.m75 = s.m75 := by simp [State.pop16]
@[simp] theorem State.push16_trapIE (s : State) (v : Word) : (s.push16 v).trapIE = s.trapIE := by simp [State.push16]
@[simp] theorem State.pop16_trapIE (s : State) : s.pop16.2.trapIE = s.trapIE := by simp [State.pop16]
@[simp] theorem State.push16_trapRIM (s : State) (v : Word) : (s.push16 v).trapRIM = s.trapRIM := by simp [State.push16]
@[simp] theorem State.pop16_trapRIM (s : State) : s.pop16.2.trapRIM = s.trapRIM := by simp [State.pop16]
@[simp] theorem State.push16_inhibit (s : State) (v : Word) : (s.push16 v).inhibit = s.inhibit := by simp [State.push16]
@[simp] theorem State.push16_starting (s : State) (v : Word) : (s.push16 v).starting = s.starting := by simp [State.push16]
@[simp] theorem State.pop16_inhibit (s : State) : s.pop16.2.inhibit = s.inhibit := by simp [State.pop16]
@[simp] theorem State.pop16_starting (s : State) : s.pop16.2.starting = s.starting := by simp [State.pop16]
@[simp] theorem State.push16_sod (s : State) (v : Word) : (s.push16 v).sod = s.sod := by simp [State.push16]
@[simp] theorem State.pop16_sod (s : State) : s.pop16.2.sod = s.sod := by simp [State.pop16]
@[simp] theorem State.push16_halted (s : State) (v : Word) : (s.push16 v).halted = s.halted := by simp [State.push16]
@[simp] theorem State.pop16_halted (s : State) : s.pop16.2.halted = s.halted := by simp [State.pop16]
@[simp] theorem State.push16_map (s : State) (v : Word) : (s.push16 v).map = s.map := by simp [State.push16]
@[simp] theorem State.pop16_map (s : State) : s.pop16.2.map = s.map := by simp [State.pop16]
@[simp] theorem State.push16_anaAc (s : State) (v : Word) : (s.push16 v).anaAc = s.anaAc := by simp [State.push16]
@[simp] theorem State.pop16_anaAc (s : State) : s.pop16.2.anaAc = s.anaAc := by simp [State.pop16]

@[simp] theorem State.push16_sp (s : State) (v : Word) : (s.push16 v).sp = s.sp - 2 := rfl
@[simp] theorem State.pop16_sp (s : State) : s.pop16.2.sp = s.sp + 2 := rfl

end Sys2Proof.Machine
end

