-- ==== Sys2Proof/Laws/Fetch.lean ====
section
/-! SUPPORT. What a quiet fetch of an instruction that stands in memory does, said once. -/

namespace Sys2Proof.Machine

/-- A quiet fetch of one operand byte from memory (R8, R101). -/
theorem State.fetch8_quiet (s : State) (hq : s.Quiet) (h : s.stored s.pc) :
    s.fetch8 = (s.byteAt s.pc, (s.log .memRead (some s.pc) (some (s.byteAt s.pc)) 3 0).setPc (s.pc + 1)) := by
  simp only [State.fetch8, State.memRead_quiet s _ hq, State.sample_stored s _ h]

/-- A quiet fetch of the instruction at PC gives it, and the state it runs in (R101, R331). -/
theorem State.fetch_quiet (t : State) (i : Instr) (hq : t.Quiet) (h : t.AtInstr i) :
    t.fetch = .ok i (t.fetched i.length) := by
  obtain ⟨hst, rest, hd⟩ := h
  have hf := decodeOp_formOf (t.byteAt t.pc)
  have hs0 : t.stored t.pc := by simpa using hst 0 (Instr.length_pos i)
  have e12 : t.pc + 1#16 + 1#16 = t.pc + 2#16 := by rw [BitVec.add_assoc]; rfl
  have e13 : t.pc + 2#16 + 1#16 = t.pc + 3#16 := by rw [BitVec.add_assoc]; rfl
  simp only [State.bytesAtPc, decode] at hd
  simp only [State.fetch, State.opFetch_quiet t hq, State.sample_stored t _ hs0]
  generalize ht1 : (t.log .opFetch (some t.pc) (some (t.byteAt t.pc)) (fetchTStates (t.byteAt t.pc)) 0).setPc (t.pc + 1) = t1
  have hp1 : t1.pc = t.pc + 1 := by rw [← ht1]; rfl
  have hq1 : t1.Quiet := by rw [← ht1]; exact hq
  split at hd <;> rename_i hdo <;> rw [hdo] at hf <;> simp only [FormOf] at hf <;> cases hd
  · simp [hdo, State.fetched, Instr.length, hf.2, State.fetchCycles, State.log, State.setPc, ← ht1]
  · have hk : t1.stored t1.pc := by
      have h2 := hst 1
      simpa [Instr.length, (hf _).2, ← ht1, State.stored, State.kindOf] using h2
    simp only [hdo, State.fetched, Instr.length, (hf _).2, State.fetchCycles, State.fetch8_quiet t1 hq1 hk, hp1]
    simp [← ht1, State.log, State.setPc, mr, State.byteAt, e12]
  · have hk : t1.stored t1.pc := by
      have h2 := hst 1
      simpa [Instr.length, (hf _).2, ← ht1, encode16, State.stored, State.kindOf] using h2
    have h3 : t.stored (t.pc + 2) := by
      have h3 := hst 2
      simpa [Instr.length, (hf _).2, encode16] using h3
    simp only [hdo, State.fetched, Instr.length, (hf _).2, State.fetchCycles, State.fetch8_quiet t1 hq1 hk, hp1]
    split
    · rename_i hsk
      simp only [State.byteAt] at hsk
      simp [← ht1, State.log, State.setPc, mr, State.byteAt, e12, e13, State.skip8, hsk, encode16]
    · rename_i hsk
      simp only [State.byteAt] at hsk
      rw [State.fetch8_quiet]
      · simp [← ht1, State.log, State.setPc, mr, State.byteAt, e12, e13, hsk, encode16]
      · exact hq1
      · simpa [← ht1, e12, State.stored, State.kindOf] using h3

end Sys2Proof.Machine
end

