-- ==== Sys2Proof/Laws/Step.lean ====
section
/-! SUPPORT. How a boundary ends, case by case, and the two ways a step ends. -/

namespace Sys2Proof.Machine

theorem State.boundary_reset (s : State) (h : s.pins.resetIn = true) : s.boundary = .done (.next s) := by
  simp only [State.boundary, h, if_true]

theorem State.boundary_hold (s : State) (hr : s.pins.resetIn = false) (h : s.pins.hold = true) :
    s.boundary = .done (.next { s with hlda := true }) := by
  simp only [State.boundary, hr, h, if_true, Bool.false_eq_true, if_false]

theorem State.boundary_closed (s : State) (hr : s.pins.resetIn = false) (hh : s.pins.hold = false)
    (h : s.starting = true ∨ s.inhibit = true) :
    s.boundary = if s.halted = true then .done (.next { s with hlda := false, starting := false, inhibit := false })
      else .run { s with hlda := false, starting := false, inhibit := false } := by
  rcases h with h | h <;>
    simp only [State.boundary, hr, hh, h, Bool.true_or, Bool.or_true, if_true, Bool.false_eq_true, if_false]

theorem State.boundary_open (s : State) (hr : s.pins.resetIn = false) (hh : s.pins.hold = false)
    (hs : s.starting = false) (h : s.inhibit = false) :
    s.boundary = match s.selectInterrupt with
      | some q => .done (State.accept { s with hlda := false } q)
      | none => if s.halted = true then .done (.next { s with hlda := false }) else .run { s with hlda := false } := by
  unfold State.boundary
  rw [if_neg (by simp [hr]), if_neg (by simp [hh])]
  exact if_neg (by simp [hs, h])

/-- A step whose boundary ends it answers what the boundary answers. -/
theorem step_done (s : State) (r : Result) (h : s.takeInputs.boundary = .done r) : step s = r := by
  simp only [step, h]

/-- A step whose boundary goes on runs the instruction it fetches. -/
theorem step_run (s t u : State) (i : Instr) (h : s.takeInputs.boundary = .run t) (hf : t.fetch = .ok i u) :
    step s = exec i u := by
  simp only [step, h, hf]

/-- A step that fetches an unassigned byte is refused (R110). -/
theorem step_unused (s t : State) (op : Byte) (h : s.takeInputs.boundary = .run t) (hf : t.fetch = .unused op) :
    step s = .refused (.unusedOpcode op) := by
  simp only [step, h, hf]

/-- The three ways a step goes. -/
theorem step_cases (s : State) :
    (∃ r, s.takeInputs.boundary = .done r ∧ step s = r) ∨
    (∃ t i u, s.takeInputs.boundary = .run t ∧ t.fetch = .ok i u ∧ step s = exec i u) ∨
    (∃ t op, s.takeInputs.boundary = .run t ∧ t.fetch = .unused op ∧ step s = .refused (.unusedOpcode op)) := by
  cases hb : s.takeInputs.boundary with
  | done r => exact .inl ⟨r, rfl, step_done s r hb⟩
  | run t =>
    cases hf : t.fetch with
    | ok i u => exact .inr (.inl ⟨t, i, u, rfl, hf, step_run s t u i hb hf⟩)
    | unused op => exact .inr (.inr ⟨t, op, rfl, hf, step_unused s t op hb hf⟩)

end Sys2Proof.Machine
end

