-- ==== Sys2Proof/Laws/Interrupts.lean ====
section
/-! SUPPORT. What the push and branch of an entry does in a quiet state, and the three ways an INTR is acknowledged. -/

namespace Sys2Proof.Machine

/-- Every byte of memory after a quiet call (R150, R176, R281). -/
theorem State.callTo_byteAt (s : State) (x : Word) (h : s.Quiet) (y : Word) :
    (s.callTo x).byteAt y = afterWrites s [(s.sp - 2, loByte s.pc), (s.sp - 1, hiByte s.pc)] y := by
  show (s.push16 s.pc).byteAt y = _
  rw [State.push16_quiet s _ h]
  show (((s.store (s.sp - 1) (hiByte s.pc)).log ..).store (s.sp - 2) (loByte s.pc)).byteAt y = _
  rw [State.byteAt_store]
  show (if _ then _ else (s.store (s.sp - 1) (hiByte s.pc)).byteAt y) = _
  rw [State.byteAt_store]
  simp [afterWrites]

/-- The machine cycles of a quiet call. -/
theorem State.callTo_bus (s : State) (x : Word) (h : s.Quiet) :
    (s.callTo x).bus = s.bus ++ [mw (s.sp - 1) (hiByte s.pc), mw (s.sp - 2) (loByte s.pc)] := by
  show (s.push16 s.pc).bus = _
  rw [State.push16_quiet s _ h]
  simp [State.log, mw]

/-- What a quiet call leaves alone beside what `State.chip` names. -/
theorem State.callTo_keeps (s : State) (x : Word) (h : s.Quiet) :
    (s.callTo x).pins = s.pins ∧ (s.callTo x).r75 = s.r75 ∧ (s.callTo x).trapFF = s.trapFF ∧ (s.callTo x).hlda = s.hlda := by
  show (s.push16 s.pc).pins = _ ∧ (s.push16 s.pc).r75 = _ ∧ (s.push16 s.pc).trapFF = _ ∧ (s.push16 s.pc).hlda = _
  rw [State.push16_quiet s _ h]
  simp

/-- INTR answered by RST n (R283). -/
theorem State.acceptIntr_rst (s : State) (n : Nat) (hq : s.Quiet) (hn : n < 8)
    (h : s.env.intaAnswer.1 = BitVec.ofNat 8 (0xC7 + 8 * n)) :
    s.acceptIntr = .next (State.callTo { s.acknowledge .intr with
      env := s.env.intaAnswer.2
      bus := s.bus ++ [⟨.intAck, some s.pc, some s.env.intaAnswer.1, 6, 0⟩] } (restartVector n)) := by
  have ho : opGroup s.env.intaAnswer.1 = 3 ∧ opLow s.env.intaAnswer.1 = 7 ∧ opMid s.env.intaAnswer.1 = n := by
    rw [h]; clear h; revert n; decide
  have hr := State.intaRead_quiet (s.acknowledge .intr) 6 hq
  unfold State.acceptIntr
  simp only [hr]
  have hc : opGroup (s.acknowledge .intr).env.intaAnswer.1 = 3 ∧ opLow (s.acknowledge .intr).env.intaAnswer.1 = 7 :=
    ⟨ho.1, ho.2.1⟩
  have hm : opMid (s.acknowledge .intr).env.intaAnswer.1 = n := ho.2.2
  rw [if_pos hc, hm]
  rfl

/-- INTR answered by CALL and an address (R283). -/
theorem State.acceptIntr_call (s : State) (lo hi : Byte) (e1 e2 e3 : Env) (hq : s.Quiet)
    (h1 : s.env.intaAnswer = (0xCD, e1)) (h2 : e1.intaAnswer = (lo, e2)) (h3 : e2.intaAnswer = (hi, e3)) :
    s.acceptIntr = .next (State.callTo { s.acknowledge .intr with
      env := e3
      bus := s.bus ++ [⟨.intAck, some s.pc, some 0xCD, 6, 0⟩, ⟨.intAck, some s.pc, some lo, 3, 0⟩,
        ⟨.intAck, some s.pc, some hi, 3, 0⟩] } (pair hi lo)) := by
  have hx1 : e1.xfers = [] := by have := Env.intaAnswer_xfers s.env; rw [h1] at this; exact this.trans hq
  have hx2 : e2.xfers = [] := by have := Env.intaAnswer_xfers e1; rw [h2] at this; exact this.trans hx1
  have r1 : (s.acknowledge .intr).intaRead 6 = (0xCD, { s.acknowledge .intr with
      env := e1, bus := s.bus ++ [⟨.intAck, some s.pc, some 0xCD, 6, 0⟩] }) := by
    rw [State.intaRead_quiet (s.acknowledge .intr) 6 hq]
    have h : (s.acknowledge .intr).env.intaAnswer = (0xCD, e1) := h1
    rw [h]; rfl
  have r2 : ∀ (t : State) (b : List BusCycle), ({ t with env := e1, bus := b } : State).intaRead 3 =
      (lo, { t with env := e2, bus := b ++ [⟨.intAck, some t.pc, some lo, 3, 0⟩] }) := by
    intro t b; rw [State.intaRead_quiet _ 3 hx1]; simp only [h2]; rfl
  have r3 : ∀ (t : State) (b : List BusCycle), ({ t with env := e2, bus := b } : State).intaRead 3 =
      (hi, { t with env := e3, bus := b ++ [⟨.intAck, some t.pc, some hi, 3, 0⟩] }) := by
    intro t b; rw [State.intaRead_quiet _ 3 hx2]; simp only [h3]; rfl
  unfold State.acceptIntr
  simp only [r1]
  rw [if_neg (by decide)]
  simp only [if_true, r2, r3, List.append_assoc]
  rfl

/-- INTR answered by anything else (R284, D18). -/
theorem State.acceptIntr_other (s : State) (hq : s.Quiet)
    (h : ∀ n, n < 8 → s.env.intaAnswer.1 ≠ BitVec.ofNat 8 (0xC7 + 8 * n)) (hc : s.env.intaAnswer.1 ≠ 0xCD) :
    s.acceptIntr = .refused (.intaOpcode s.env.intaAnswer.1) := by
  have hr := State.intaRead_quiet (s.acknowledge .intr) 6 hq
  have hn : ¬ (opGroup (s.acknowledge .intr).env.intaAnswer.1 = 3 ∧ opLow (s.acknowledge .intr).env.intaAnswer.1 = 7) := by
    rintro ⟨k1, k2⟩
    replace k1 : s.env.intaAnswer.1.toNat / 64 = 3 := k1
    replace k2 : s.env.intaAnswer.1.toNat % 8 = 7 := k2
    refine h (s.env.intaAnswer.1.toNat / 8 % 8) (by omega) (BitVec.eq_of_toNat_eq ?_)
    simp only [BitVec.toNat_ofNat]
    omega
  have hc' : (s.acknowledge .intr).env.intaAnswer.1 ≠ 0xCD := hc
  unfold State.acceptIntr
  simp only [hr]
  rw [if_neg hn, if_neg hc']
  rfl

end Sys2Proof.Machine
end

