-- ==== Sys2Proof/Laws/After.lean ====
section
/-! SUPPORT. The frame `After` of each shared operation in a quiet state, and how frames compose: an instruction's frame is that of
its operations one after another. -/

namespace Sys2Proof.Machine

theorem SameControl.refl (s : State) : SameControl s s :=
  ⟨rfl, rfl, rfl, rfl, rfl, rfl, rfl, rfl, rfl, rfl, rfl, rfl, rfl, rfl, rfl, rfl⟩

theorem SameControl.trans {s t u : State} (h : SameControl s t) (k : SameControl t u) : SameControl s u := by
  unfold SameControl at *
  simp_all

/-- Writes over writes. -/
theorem afterWrites_append {s t : State} (late early : List (Word × Byte)) (hm : ∀ x, t.byteAt x = afterWrites s early x)
    (hk : t.map = s.map) (x : Word) : afterWrites t late x = afterWrites s (late ++ early) x := by
  induction late with
  | nil => exact hm x
  | cons e late ih =>
    obtain ⟨y, v⟩ := e
    have hy : t.kindOf y = s.kindOf y := by simp [State.kindOf, hk]
    simp only [afterWrites, List.cons_append, ih, hy]

/-- Frames compose. -/
theorem After.trans {s t u : State} {c1 c2 : List Reg} {sp1 sp2 pc1 pc2 : Word} {f1 f2 : Flags} {w1 w2 : List (Word × Byte)}
    {b1 b2 : List BusCycle} (h : After s t c1 sp1 pc1 f1 w1 b1) (k : After t u c2 sp2 pc2 f2 w2 b2) :
    After s u (c2 ++ c1) sp2 pc2 f2 (w2 ++ w1) (b1 ++ b2) where
  regs r hr := by
    simp only [List.mem_append, not_or] at hr
    rw [k.regs r hr.1, h.regs r hr.2]
  sp := k.sp
  pc := k.pc
  flags := k.flags
  mem x := by
    rw [k.mem, afterWrites_append w2 w1 h.mem (by have := h.control; simp only [SameControl] at this; simp only [this])]
  control := h.control.trans k.control
  bus := by rw [k.bus, h.bus, List.append_assoc]

/-- A frame may name more registers than change. -/
theorem After.weaken {s t : State} {c d : List Reg} {sp pc : Word} {f : Flags} {w : List (Word × Byte)} {b : List BusCycle}
    (h : After s t c sp pc f w b) (hc : c ⊆ d) : After s t d sp pc f w b :=
  { h with regs := fun r hr => h.regs r fun hm => hr (hc hm) }

theorem After.refl (s : State) : After s s [] s.sp s.pc s.flags [] [] where
  regs _ _ := rfl
  sp := rfl
  pc := rfl
  flags := rfl
  mem _ := rfl
  control := SameControl.refl s
  bus := by simp

theorem After.setReg (s : State) (r : Reg) (v : Byte) : After s (s.setReg r v) [r] s.sp s.pc s.flags [] [] where
  regs q hq := by
    simp only [List.mem_singleton] at hq
    simp [State.reg_setReg, hq]
  sp := by simp
  pc := by simp
  flags := by simp
  mem x := by simp [State.byteAt, afterWrites]
  control := by simp [SameControl]
  bus := by simp

theorem After.setPc (s : State) (x : Word) : After s (s.setPc x) [] s.sp x s.flags [] [] where
  regs q _ := by cases q <;> rfl
  sp := rfl
  pc := rfl
  flags := rfl
  mem _ := rfl
  control := SameControl.refl s
  bus := by simp

theorem After.setFlags (s : State) (f : Flags) : After s (s.setFlags f) [] s.sp s.pc f [] [] where
  regs q _ := by cases q <;> rfl
  sp := rfl
  pc := rfl
  flags := rfl
  mem _ := rfl
  control := SameControl.refl s
  bus := by simp

theorem After.setSp (s : State) (x : Word) : After s (s.setRp .sp x) [] x s.pc s.flags [] [] where
  regs q _ := by cases q <;> rfl
  sp := rfl
  pc := rfl
  flags := rfl
  mem _ := rfl
  control := SameControl.refl s
  bus := by simp [State.setRp]

theorem After.setBc (s : State) (x : Word) : After s (s.setRp .bc x) [.b, .c] s.sp s.pc s.flags [] [] where
  regs q hq := by cases q <;> first | rfl | simp at hq
  sp := rfl
  pc := rfl
  flags := rfl
  mem _ := rfl
  control := SameControl.refl s
  bus := by simp [State.setRp]

theorem After.setDe (s : State) (x : Word) : After s (s.setRp .de x) [.d, .e] s.sp s.pc s.flags [] [] where
  regs q hq := by cases q <;> first | rfl | simp at hq
  sp := rfl
  pc := rfl
  flags := rfl
  mem _ := rfl
  control := SameControl.refl s
  bus := by simp [State.setRp]

theorem After.setHl (s : State) (x : Word) : After s (s.setRp .hl x) [.h, .l] s.sp s.pc s.flags [] [] where
  regs q hq := by cases q <;> first | rfl | simp at hq
  sp := rfl
  pc := rfl
  flags := rfl
  mem _ := rfl
  control := SameControl.refl s
  bus := by simp [State.setRp]

theorem After.aluToA (s : State) (r : AluOut) : After s (s.aluToA r) [.a] s.sp s.pc (s.flags.ofAlu r) [] [] where
  regs q hq := by cases q <;> first | rfl | simp at hq
  sp := rfl
  pc := rfl
  flags := rfl
  mem _ := rfl
  control := SameControl.refl s
  bus := by simp [State.aluToA]

theorem After.logicToA (s : State) (v : Byte) (ac : Bool) :
    After s (s.logicToA v ac) [.a] s.sp s.pc (s.flags.ofLogic v ac) [] [] where
  regs q hq := by cases q <;> first | rfl | simp at hq
  sp := rfl
  pc := rfl
  flags := rfl
  mem _ := rfl
  control := SameControl.refl s
  bus := by simp [State.logicToA]

theorem After.rotate (s : State) (v : Byte) (cy : Bool) :
    After s (s.rotate v cy) [.a] s.sp s.pc { s.flags with cy := cy } [] [] where
  regs q hq := by cases q <;> first | rfl | simp at hq
  sp := rfl
  pc := rfl
  flags := rfl
  mem _ := rfl
  control := SameControl.refl s
  bus := by simp [State.rotate]

theorem After.draw (s : State) : After s s.draw.2 [] s.sp s.pc s.flags [] [] where
  regs q _ := by cases q <;> rfl
  sp := rfl
  pc := rfl
  flags := rfl
  mem _ := rfl
  control := SameControl.refl s
  bus := by simp [State.draw]

theorem After.idle (s : State) (k : CycleKind) (n : Nat) :
    After s (s.idle k n) [] s.sp s.pc s.flags [] [⟨k, none, none, n, 0⟩] where
  regs q _ := by cases q <;> rfl
  sp := rfl
  pc := rfl
  flags := rfl
  mem _ := rfl
  control := SameControl.refl s
  bus := rfl

/-- A quiet memory read. -/
theorem After.memRead (s : State) (x : Word) (h : s.Quiet) :
    After s (s.memRead x).2 [] s.sp s.pc s.flags [] [mr x (s.reads x)] := by
  rw [State.memRead_quiet _ _ h]
  exact {
    regs := fun q _ => by cases q <;> simp [State.reg]
    sp := by simp
    pc := by simp
    flags := by simp
    mem := fun y => by simp [State.byteAt, afterWrites]
    control := by simp [SameControl]
    bus := by simp [mr, State.reads, State.log] }

/-- A quiet memory write. -/
theorem After.memWrite (s : State) (x : Word) (v : Byte) (h : s.Quiet) :
    After s (s.memWrite x v) [] s.sp s.pc s.flags [(x, v)] [mw x v] := by
  rw [State.memWrite_quiet _ _ _ h]
  exact {
    regs := fun q _ => by cases q <;> simp [State.reg]
    sp := by simp
    pc := by simp
    flags := by simp
    mem := fun y => State.byteAt_store s x v y
    control := by simp [SameControl]
    bus := by simp [mw, State.log] }

/-- A quiet I/O read. -/
theorem After.ioRead (s : State) (port : Byte) (h : s.Quiet) :
    After s (s.ioRead port).2 [] s.sp s.pc s.flags [] [⟨.ioRead, some (pair port port), some (s.ioRead port).1, 3, 0⟩] := by
  rw [State.ioRead_quiet _ _ h]
  exact {
    regs := fun q _ => by cases q <;> rfl
    sp := rfl
    pc := rfl
    flags := rfl
    mem := fun _ => rfl
    control := SameControl.refl s
    bus := rfl }

/-- A quiet I/O write. -/
theorem After.ioWrite (s : State) (port v : Byte) (h : s.Quiet) :
    After s (s.ioWrite port v) [] s.sp s.pc s.flags [] [⟨.ioWrite, some (pair port port), some v, 3, 0⟩] := by
  rw [State.ioWrite_quiet _ _ _ h]
  exact {
    regs := fun q _ => by cases q <;> rfl
    sp := rfl
    pc := rfl
    flags := rfl
    mem := fun _ => rfl
    control := SameControl.refl s
    bus := rfl }

/-! ### Quiet states stay quiet -/

theorem State.Quiet.memRead {s : State} (h : s.Quiet) (x : Word) : (s.memRead x).2.Quiet := by
  rw [State.memRead_quiet _ _ h]; simpa [State.Quiet] using h

theorem State.Quiet.memWrite {s : State} (h : s.Quiet) (x : Word) (v : Byte) : (s.memWrite x v).Quiet := by
  rw [State.memWrite_quiet _ _ _ h]; simpa [State.Quiet] using h

theorem State.Quiet.draw {s : State} (h : s.Quiet) : s.draw.2.Quiet := by
  show s.env.draw.2.xfers = []
  rw [Env.draw_xfers]; exact h

/-! ### Two bytes -/

/-- The byte of a quiet read. -/
theorem State.memRead_value (s : State) (x : Word) (h : s.Quiet) : (s.memRead x).1 = s.reads x := by
  rw [State.memRead_quiet _ _ h]; rfl

/-- The byte of a second quiet read, after the first. -/
theorem State.memRead_second (s : State) (x y : Word) (h : s.Quiet) : (s.memRead x).2.reads y = (s.reads2 x y).2 := by
  rw [State.memRead_quiet _ _ h]; simp [State.reads, State.reads2, State.sample_log]

/-- The word of a quiet two-byte read. -/
theorem State.memRead16_value (s : State) (x : Word) (h : s.Quiet) :
    (s.memRead16 x).1 = pair (s.reads2 x (x + 1)).2 (s.reads2 x (x + 1)).1 := by
  rw [State.memRead16_quiet _ _ h]

/-- A quiet two-byte read. -/
theorem After.memRead16 (s : State) (x : Word) (h : s.Quiet) :
    After s (s.memRead16 x).2 [] s.sp s.pc s.flags []
      [mr x (s.reads2 x (x + 1)).1, mr (x + 1) (s.reads2 x (x + 1)).2] := by
  have h2 := (After.memRead s x h).trans (After.memRead _ (x + 1) (h.memRead x))
  simp only [State.memRead_second s x (x + 1) h, List.append_nil, State.memRead_sp, State.memRead_pc,
    State.memRead_flags] at h2
  exact h2

/-- A quiet two-byte write: the low byte first. -/
theorem After.memWrite16 (s : State) (x v : Word) (h : s.Quiet) :
    After s (s.memWrite16 x v) [] s.sp s.pc s.flags [(x + 1, hiByte v), (x, loByte v)]
      [mw x (loByte v), mw (x + 1) (hiByte v)] := by
  have h2 := (After.memWrite s x (loByte v) h).trans (After.memWrite _ (x + 1) (hiByte v) (h.memWrite x _))
  simp only [List.append_nil, State.memWrite_sp, State.memWrite_pc, State.memWrite_flags] at h2
  exact h2

/-- A quiet push (R150). -/
theorem After.push16 (s : State) (v : Word) (h : s.Quiet) :
    After s (s.push16 v) [] (s.sp - 2) s.pc s.flags [(s.sp - 2, loByte v), (s.sp - 1, hiByte v)]
      [mw (s.sp - 1) (hiByte v), mw (s.sp - 2) (loByte v)] := by
  have h2 := (After.memWrite s (s.sp - 1) (hiByte v) h).trans (After.memWrite _ (s.sp - 2) (loByte v) (h.memWrite _ _))
  have h3 := h2.trans (After.setSp _ (s.sp - 2))
  simp only [List.append_nil, State.memWrite_pc, State.memWrite_flags] at h3
  exact h3

/-- A quiet pop (R150). -/
theorem After.pop16 (s : State) (h : s.Quiet) :
    After s s.pop16.2 [] (s.sp + 2) s.pc s.flags []
      [mr s.sp (s.reads2 s.sp (s.sp + 1)).1, mr (s.sp + 1) (s.reads2 s.sp (s.sp + 1)).2] := by
  have h2 := (After.memRead16 s s.sp h).trans (After.setSp _ (s.sp + 2))
  simp only [List.append_nil, State.memRead16_pc, State.memRead16_flags] at h2
  exact h2

/-- A quiet call (R176). -/
theorem After.callTo (s : State) (x : Word) (h : s.Quiet) :
    After s (s.callTo x) [] (s.sp - 2) x s.flags [(s.sp - 2, loByte s.pc), (s.sp - 1, hiByte s.pc)]
      [mw (s.sp - 1) (hiByte s.pc), mw (s.sp - 2) (loByte s.pc)] := by
  have h2 := (After.push16 s s.pc h).trans (After.setPc _ x)
  simp only [List.append_nil, State.push16_sp, State.push16_flags] at h2
  exact h2

/-- A quiet return (R185). -/
theorem After.returnFrom (s : State) (h : s.Quiet) :
    After s s.returnFrom [] (s.sp + 2) (pair (s.reads2 s.sp (s.sp + 1)).2 (s.reads2 s.sp (s.sp + 1)).1) s.flags []
      [mr s.sp (s.reads2 s.sp (s.sp + 1)).1, mr (s.sp + 1) (s.reads2 s.sp (s.sp + 1)).2] := by
  have h2 := (After.pop16 s h).trans (After.setPc _ s.pop16.1)
  have hv : s.pop16.1 = (s.memRead16 s.sp).1 := rfl
  rw [hv, State.memRead16_value s s.sp h] at h2
  have hr : s.returnFrom = s.pop16.2.setPc (s.memRead16 s.sp).1 := rfl
  rw [hr, State.memRead16_value s s.sp h]
  simpa using h2

end Sys2Proof.Machine
end

