-- ==== Sys2Proof/Laws/Bus.lean ====
section
/-! SUPPORT. Which T states a machine cycle has, said once. -/

namespace Sys2Proof.Machine

/-- A cycle that is no halt idle has T1, T2, its wait states and T3, and T4 to T6 as far as it is longer (R65, R73). -/
theorem BusCycle.tStates_eq (c : BusCycle) (h : c.kind ≠ .idleHalt) :
    c.tStates = [.t1, .t2] ++ List.replicate c.waits .tWait ++ [.t3] ++ ([.t4, .t5, .t6] : List TState).take (c.base - 3) := by
  unfold BusCycle.tStates
  split
  · rename_i hk
    exact absurd hk h
  · rfl

/-- T4 to T6 stand only in a cycle longer than three T states. -/
theorem BusCycle.mem_tStates (c : BusCycle) (t : TState) (h : t ∈ c.tStates) :
    t ∈ [TState.t1, .t2, .tWait, .t3] ∨ (t ∈ [TState.t4, .t5, .t6] ∧ 3 < c.base) := by
  by_cases hk : c.kind = .idleHalt
  · unfold BusCycle.tStates at h
    rw [hk] at h
    rw [List.eq_of_mem_replicate h]
    exact .inl (by decide)
  · rw [BusCycle.tStates_eq c hk, List.mem_append, List.mem_append, List.mem_append, List.mem_replicate] at h
    rcases h with ((h | ⟨-, rfl⟩) | h) | h
    · simp only [List.mem_cons, List.not_mem_nil, or_false] at h
      rcases h with rfl | rfl <;> exact .inl (by decide)
    · exact .inl (by decide)
    · rw [List.mem_singleton.mp h]
      exact .inl (by decide)
    · refine .inr ⟨List.mem_of_mem_take h, ?_⟩
      by_contra hb
      rw [Nat.sub_eq_zero_of_le (Nat.le_of_not_lt hb)] at h
      exact absurd h List.not_mem_nil

end Sys2Proof.Machine
end

