-- ==== Sys2Proof/Laws/Flags.lean ====
section
/-! SUPPORT. The 9-bit and 5-bit sums of `add8` as sums of numbers. -/

namespace Sys2Proof.Machine

/-- `add8` is exact: result and CY make the sum, AC is the carry out of bit 3 (R9). -/
theorem add8_exact (x y : Byte) (c : Bool) :
    (add8 x y c).res.toNat + 256 * (add8 x y c).cy.toNat = x.toNat + y.toNat + c.toNat ∧
    (add8 x y c).ac = decide (16 ≤ x.toNat % 16 + y.toNat % 16 + c.toNat) := by
  have hx := x.isLt
  have hy := y.isLt
  have hc : c.toNat < 2 := by cases c <;> decide
  have hd : ∀ p : Prop, ∀ [Decidable p], (decide p).toNat = if p then 1 else 0 := fun p _ => by split <;> simp [*]
  constructor
  · simp only [add8, BitVec.toNat_setWidth, BitVec.toNat_add, BitVec.getLsbD, BitVec.toNat_ofBool,
      Nat.testBit_eq_decide_div_mod_eq, hd]
    split <;> omega
  · simp only [add8, BitVec.toNat_setWidth, BitVec.toNat_add, BitVec.getLsbD, BitVec.toNat_ofBool,
      Nat.testBit_eq_decide_div_mod_eq, BitVec.extractLsb'_toNat, Nat.shiftRight_zero, decide_eq_decide]
    omega

end Sys2Proof.Machine
end

