-- ==== Sys2Proof/Laws/Invariant.lean ====
section
/-! SUPPORT. What an instruction can do to the machine, said once (`Stable.exec`): it writes registers, stores bytes, and lets the
environment act between its bus transfers. Whatever these three keep, every instruction keeps but EI, DI, HLT, RIM and SIM, which
write a flip-flop themselves. -/

namespace Sys2Proof.Machine

/-- The state without its registers, flags, SP, PC, the environment's data and the record of bus cycles. -/
def State.machine (s : State) : State :=
  { s with
    a := 0, b := 0, c := 0, d := 0, e := 0, h := 0, l := 0, flags := ⟨false, false, false, false, false⟩, sp := 0, pc := 0
    env := ⟨[], [], [], [], [], [], 0⟩, bus := [] }

/-- A property that register writes, stores and the gap before a bus transfer keep. -/
structure Stable (P : State → Prop) : Prop where
  frame : ∀ s t : State, t.machine = s.machine → t.env.xfers = s.env.xfers → P s → P t
  store : ∀ (s : State) (x : Word) (v : Byte), P s → P (s.store x v)
  gap : ∀ s : State, P s → P s.gap.1

/-- A property that the environment's acts between bus transfers keep, whatever they are. -/
structure EventStable (P : State → Prop) : Prop where
  frame : ∀ s t : State, t.machine = s.machine → P s → P t
  store : ∀ (s : State) (x : Word) (v : Byte), P s → P (s.store x v)
  setPin : ∀ (s : State) (p : Pin) (b : Bool), P s → P (s.setPin p b)
  endHold : ∀ s : State, P s → P s.endHold

/-- The free values of a reset touch the registers, flags and SP alone. -/
theorem State.drawRegisters_machine (s : State) : s.drawRegisters.machine = s.machine := by
  have hr : ∀ (t : State) (r : Reg), (t.drawReg r).machine = t.machine := fun t r => by cases r <;> rfl
  have hf : ∀ t : State, t.drawFlags.machine = t.machine := fun _ => rfl
  have hs : ∀ t : State, t.drawSp.machine = t.machine := fun _ => rfl
  simp only [State.drawRegisters, hr, hf, hs]

/-- What RESET IN does not touch (R321, R46). -/
theorem State.assertReset_keeps (s : State) :
    s.assertReset.mem = s.mem ∧ s.assertReset.map = s.map ∧ s.assertReset.anaAc = s.anaAc ∧
    s.assertReset.trapIE = s.trapIE := by
  have h := s.drawRegisters_machine
  have hm : s.drawRegisters.machine.mem = s.machine.mem := by rw [h]
  have hp : s.drawRegisters.machine.map = s.machine.map := by rw [h]
  have ha : s.drawRegisters.machine.anaAc = s.machine.anaAc := by rw [h]
  have ht : s.drawRegisters.machine.trapIE = s.machine.trapIE := by rw [h]
  exact ⟨hm, hp, ha, ht⟩

variable {P : State → Prop} {s : State}

theorem EventStable.event (hP : EventStable P) (h : P s) (e : Event) : P (s.event e) := by
  cases e with
  | pin p b => exact hP.setPin s p b h
  | dma x v => simp only [State.event]; split
               · exact hP.store s x v h
               · exact h

theorem EventStable.events (hP : EventStable P) (h : P s) (es : List Event) : P (s.events es) := by
  induction es generalizing s with
  | nil => exact h
  | cons e es ih => exact ih (hP.event h e)

/-- What the environment's acts keep, a whole gap keeps. -/
theorem EventStable.stable (hP : EventStable P) : Stable P where
  frame s t h _ := hP.frame s t h
  store := hP.store
  gap s h := by
    unfold State.gap
    split
    · exact h
    · rename_i x rest _
      exact hP.endHold _ (hP.events (hP.frame s { s with env := { s.env with xfers := rest } } rfl h) x.events)

theorem Stable.log (hP : Stable P) (h : P s) (k : CycleKind) (x : Option Word) (v : Option Byte) (n w : Nat) :
    P (s.log k x v n w) := hP.frame s _ rfl rfl h

theorem Stable.setReg (hP : Stable P) (h : P s) (r : Reg) (v : Byte) : P (s.setReg r v) :=
  hP.frame s _ (by cases r <;> rfl) (by cases r <;> rfl) h

theorem Stable.setRp (hP : Stable P) (h : P s) (p : RegPair) (v : Word) : P (s.setRp p v) :=
  hP.frame s _ (by cases p <;> rfl) (by cases p <;> rfl) h

theorem Stable.setPc (hP : Stable P) (h : P s) (x : Word) : P (s.setPc x) := hP.frame s _ rfl rfl h

theorem Stable.setFlags (hP : Stable P) (h : P s) (f : Flags) : P (s.setFlags f) := hP.frame s _ rfl rfl h

theorem Stable.sample (hP : Stable P) (h : P s) (x : Word) : P (s.sample x).2 :=
  hP.frame s _ (by unfold State.sample; split <;> rfl) (State.sample_xfers s x) h

theorem Stable.memRead (hP : Stable P) (h : P s) (x : Word) : P (s.memRead x).2 := hP.log (hP.sample (hP.gap _ h) x) ..

theorem Stable.opFetch (hP : Stable P) (h : P s) : P s.opFetch.2 := hP.log (hP.sample (hP.gap _ h) _) ..

theorem Stable.memWrite (hP : Stable P) (h : P s) (x : Word) (v : Byte) : P (s.memWrite x v) :=
  hP.log (hP.store _ x v (hP.gap _ h)) ..

theorem Stable.ioRead (hP : Stable P) (h : P s) (p : Byte) : P (s.ioRead p).2 :=
  hP.frame s.gap.1 _ rfl (Env.ioAnswer_xfers _) (hP.gap _ h)

theorem Stable.ioWrite (hP : Stable P) (h : P s) (p v : Byte) : P (s.ioWrite p v) := hP.frame s.gap.1 _ rfl rfl (hP.gap _ h)

theorem Stable.intaRead (hP : Stable P) (h : P s) (n : Nat) : P (s.intaRead n).2 :=
  hP.frame s.gap.1 _ rfl (Env.intaAnswer_xfers _) (hP.gap _ h)

theorem Stable.memRead16 (hP : Stable P) (h : P s) (x : Word) : P (s.memRead16 x).2 := hP.memRead (hP.memRead h x) _

theorem Stable.memWrite16 (hP : Stable P) (h : P s) (x v : Word) : P (s.memWrite16 x v) :=
  hP.memWrite (hP.memWrite h x _) _ _

theorem Stable.push16 (hP : Stable P) (h : P s) (v : Word) : P (s.push16 v) :=
  hP.frame ((s.memWrite (s.sp - 1) (hiByte v)).memWrite (s.sp - 2) (loByte v)) _ rfl rfl (hP.memWrite (hP.memWrite h _ _) _ _)

theorem Stable.pop16 (hP : Stable P) (h : P s) : P s.pop16.2 := hP.frame (s.memRead16 s.sp).2 _ rfl rfl (hP.memRead16 h s.sp)

theorem Stable.callTo (hP : Stable P) (h : P s) (x : Word) : P (s.callTo x) := hP.setPc (hP.push16 h _) x

theorem Stable.returnFrom (hP : Stable P) (h : P s) : P s.returnFrom := hP.setPc (hP.pop16 h) _

theorem Stable.readM (hP : Stable P) (h : P s) : P s.readM.2 := hP.memRead h _

theorem Stable.writeM (hP : Stable P) (h : P s) (v : Byte) : P (s.writeM v) := hP.memWrite h _ v

theorem Stable.aluToA (hP : Stable P) (h : P s) (r : AluOut) : P (s.aluToA r) := hP.frame s _ rfl rfl h

theorem Stable.logicToA (hP : Stable P) (h : P s) (v : Byte) (b : Bool) : P (s.logicToA v b) := hP.frame s _ rfl rfl h

theorem Stable.addToA (hP : Stable P) (h : P s) (v : Byte) (b : Bool) : P (s.addToA v b) := hP.aluToA h _

theorem Stable.subFromA (hP : Stable P) (h : P s) (v : Byte) (b : Bool) : P (s.subFromA v b) := hP.aluToA h _

theorem Stable.compare (hP : Stable P) (h : P s) (v : Byte) : P (s.compare v) := hP.setFlags h _

theorem Stable.andToA (hP : Stable P) (h : P s) (v : Byte) : P (s.andToA v) := hP.logicToA h _ _

theorem Stable.xorToA (hP : Stable P) (h : P s) (v : Byte) : P (s.xorToA v) := hP.logicToA h _ _

theorem Stable.orToA (hP : Stable P) (h : P s) (v : Byte) : P (s.orToA v) := hP.logicToA h _ _

theorem Stable.rotate (hP : Stable P) (h : P s) (v : Byte) (b : Bool) : P (s.rotate v b) := hP.frame s _ rfl rfl h

theorem Stable.draw (hP : Stable P) (h : P s) : P s.draw.2 := hP.frame s _ rfl (Env.draw_xfers _) h

theorem Stable.dad (hP : Stable P) (h : P s) (p : RegPair) : P (s.dad p) :=
  hP.setFlags (hP.setRp (hP.log (hP.log h ..) ..) _ _) _

theorem Stable.jumpIf (hP : Stable P) (h : P s) (cc : Cond) (x : Word) : P (s.jumpIf cc x) := by
  unfold State.jumpIf; split
  · exact hP.setPc h x
  · exact h

theorem Stable.callIf (hP : Stable P) (h : P s) (cc : Cond) (x : Word) : P (s.callIf cc x) := by
  unfold State.callIf; split
  · exact hP.callTo h x
  · exact h

theorem Stable.returnIf (hP : Stable P) (h : P s) (cc : Cond) : P (s.returnIf cc) := by
  unfold State.returnIf; split
  · exact hP.returnFrom h
  · exact h

theorem Stable.fetch8 (hP : Stable P) (h : P s) : P s.fetch8.2 := hP.setPc (hP.memRead h _) _

/-- A fetch keeps what is stable. -/
theorem Stable.fetch (hP : Stable P) (h : P s) {i : Instr} {t : State} (hf : s.fetch = .ok i t) : P t := by
  unfold State.fetch at hf
  have h1 := hP.setPc (hP.opFetch h) (s.pc + 1)
  simp only at hf
  split at hf <;> cases hf
  · exact h1
  · exact hP.fetch8 h1
  · split
    · exact hP.setPc (hP.fetch8 h1) _
    · exact hP.fetch8 (hP.fetch8 h1)

/-- The five instructions that write a flip-flop. -/
def writesFlipFlop : Instr → Bool
  | .ei | .di | .hlt | .rim | .sim => true
  | _ => false

/-- Every other instruction keeps what is stable. -/
theorem Stable.exec (hP : Stable P) (h : P s) {i : Instr} {t : State} (hi : writesFlipFlop i = false)
    (he : exec i s = .next t) : P t := by
  cases i
  case ei | di | hlt | rim | sim => cases hi
  all_goals
    cases he
    with_reducible first
      | exact h
      | exact hP.setReg h _ _
      | exact hP.setRp h _ _
      | exact hP.setRp (hP.setRp h _ _) _ _
      | exact hP.setPc h _
      | exact hP.setFlags h _
      | exact hP.writeM h _
      | exact hP.memWrite h _ _
      | exact hP.memWrite16 h _ _
      | exact hP.setReg (hP.readM h) _ _
      | exact hP.setReg (hP.memRead h _) _ _
      | exact hP.setRp (hP.memRead16 h _) _ _
      | exact hP.push16 h _
      | exact hP.push16 (hP.draw h) _
      | exact hP.setRp (hP.pop16 h) _ _
      | exact hP.setFlags (hP.setReg (hP.pop16 h) _ _) _
      | exact hP.setRp (hP.memWrite (hP.memWrite (hP.memRead16 h _) _ _) _ _) _ _
      | exact hP.jumpIf h _ _
      | exact hP.callIf h _ _
      | exact hP.returnIf h _
      | exact hP.callTo h _
      | exact hP.returnFrom h
      | exact hP.setReg (hP.ioRead h _) _ _
      | exact hP.ioWrite h _ _
      | exact hP.setFlags (hP.setReg h _ _) _
      | exact hP.setFlags (hP.writeM (hP.readM h) _) _
      | exact hP.addToA h _ _
      | exact hP.addToA (hP.readM h) _ _
      | exact hP.subFromA h _ _
      | exact hP.subFromA (hP.readM h) _ _
      | exact hP.andToA h _
      | exact hP.andToA (hP.readM h) _
      | exact hP.xorToA h _
      | exact hP.xorToA (hP.readM h) _
      | exact hP.orToA h _
      | exact hP.orToA (hP.readM h) _
      | exact hP.compare h _
      | exact hP.compare (hP.readM h) _
      | exact hP.rotate h _ _
      | exact hP.aluToA h _
      | exact hP.dad h _

/-- The acceptance of an interrupt keeps what is stable, once its flip-flops are written. -/
theorem Stable.accept (hP : Stable P) {q : Request} {t : State} (h : P (s.acknowledge q)) (ha : s.accept q = .next t) : P t := by
  have hr : ∀ q, P (s.acknowledge q) → P (s.acceptRestart q) := fun q h =>
    hP.callTo (hP.frame (s.acknowledge q) ((s.acknowledge q).idle .idleAck 6) rfl rfl h) _
  cases q
  case intr =>
    simp only [State.accept, State.acceptIntr] at ha
    split at ha
    · cases ha; exact hP.callTo (hP.intaRead h 6) _
    · split at ha
      · cases ha; exact hP.callTo (hP.intaRead (hP.intaRead (hP.intaRead h 6) 3) 3) _
      · cases ha
  all_goals (cases ha; exact hr _ h)

/-! ### Stable properties -/

/-- Memory is in canonical form, and HLDA is 1 only while HOLD is high and RESET IN is not applied. -/
def State.Sound (s : State) : Prop :=
  s.mem.wf = true ∧ (s.hlda = true → s.pins.hold = true ∧ s.pins.resetIn = false)

theorem stable_sound : EventStable State.Sound where
  frame s t h hs := by
    have hm : t.mem = s.mem := show t.machine.mem = s.machine.mem by rw [h]
    have hh : t.hlda = s.hlda := show t.machine.hlda = s.machine.hlda by rw [h]
    have hp : t.pins = s.pins := show t.machine.pins = s.machine.pins by rw [h]
    simpa only [State.Sound, hm, hh, hp] using hs
  store s x v h := ⟨State.wf_store s x v h.1, by simpa using h.2⟩
  setPin s p b h := by
    cases p
    case hold => exact ⟨h.1, fun hh => by simpa [State.setPin, Bool.and_eq_true] using hh⟩
    all_goals exact h
  endHold s h := ⟨h.1, fun hh => absurd hh (by simp [State.endHold])⟩

/-- A request flip-flop that is set stays set. -/
theorem stable_r75 : EventStable fun s => s.r75 = true where
  frame s t h hs := (show t.machine.r75 = s.machine.r75 by rw [h]).trans hs
  store s x v h := by simpa using h
  setPin s p b h := by cases p <;> simp [State.setPin, h]
  endHold s h := h

theorem stable_trapFF : EventStable fun s => s.trapFF = true where
  frame s t h hs := (show t.machine.trapFF = s.machine.trapFF by rw [h]).trans hs
  store s x v h := by simpa using h
  setPin s p b h := by cases p <;> simp [State.setPin, h]
  endHold s h := h

/-- The flip-flops no event between transfers writes, and RESET IN, keep given values. -/
theorem stable_chip (u : State) : EventStable fun s => s.chip.machine = u where
  frame s t h hs := by
    have hm : ∀ x : State, x.chip.machine = x.machine.chip := fun _ => rfl
    rw [hm, h, ← hm]; exact hs
  store s x v h := by rw [State.chip_store]; exact h
  setPin s p b h := by rw [State.chip_setPin]; exact h
  endHold s h := h

/-- Where nothing happens between the bus transfers, an instruction keeps all of this but memory, the pins and the request
flip-flops included. -/
theorem stable_quiet (u : State) : Stable fun s => s.Quiet ∧ { s.machine with mem := [] } = u where
  frame s t h hx hs := ⟨hx.trans hs.1, by simpa only [h] using hs.2⟩
  store s x v h := by
    unfold State.store
    split <;> exact h
  gap s h := by rw [State.gap_quiet s h.1]; exact h

/-- What two states with the same such flip-flops share. -/
theorem State.chip_machine_eq {s t : State} (h : t.chip.machine = s.chip.machine) :
    t.ie = s.ie ∧ t.m55 = s.m55 ∧ t.m65 = s.m65 ∧ t.m75 = s.m75 ∧ t.trapIE = s.trapIE ∧ t.trapRIM = s.trapRIM ∧
    t.inhibit = s.inhibit ∧ t.starting = s.starting ∧ t.sod = s.sod ∧ t.halted = s.halted ∧ t.map = s.map ∧
    t.anaAc = s.anaAc ∧ t.pins.resetIn = s.pins.resetIn := by
  simpa [State.chip, State.machine] using h

/-- What an instruction that writes no flip-flop keeps, whatever the environment does meanwhile. -/
theorem exec_keeps {i : Instr} {s t : State} (hi : writesFlipFlop i = false) (he : exec i s = .next t) :
    t.ie = s.ie ∧ t.m55 = s.m55 ∧ t.m65 = s.m65 ∧ t.m75 = s.m75 ∧ t.trapIE = s.trapIE ∧ t.trapRIM = s.trapRIM ∧
    t.inhibit = s.inhibit ∧ t.starting = s.starting ∧ t.sod = s.sod ∧ t.halted = s.halted ∧ t.map = s.map ∧
    t.anaAc = s.anaAc ∧ t.pins.resetIn = s.pins.resetIn :=
  State.chip_machine_eq ((stable_chip _).stable.exec rfl hi he)

/-- What an acceptance keeps of the state its flip-flops were written in. -/
theorem accept_keeps {q : Request} {s t : State} (ha : s.accept q = .next t) :
    t.ie = (s.acknowledge q).ie ∧ t.m55 = (s.acknowledge q).m55 ∧ t.m65 = (s.acknowledge q).m65 ∧
    t.m75 = (s.acknowledge q).m75 ∧ t.trapIE = (s.acknowledge q).trapIE ∧ t.trapRIM = (s.acknowledge q).trapRIM ∧
    t.inhibit = (s.acknowledge q).inhibit ∧ t.starting = (s.acknowledge q).starting ∧ t.sod = (s.acknowledge q).sod ∧
    t.halted = (s.acknowledge q).halted ∧ t.map = (s.acknowledge q).map ∧ t.anaAc = (s.acknowledge q).anaAc ∧ t.pins.resetIn = (s.acknowledge q).pins.resetIn :=
  State.chip_machine_eq ((stable_chip _).stable.accept rfl ha)

/-- What it keeps beside where nothing happens between its bus transfers. -/
theorem exec_quiet_keeps {i : Instr} {s t : State} (hq : s.Quiet) (hi : writesFlipFlop i = false) (he : exec i s = .next t) :
    t.Quiet ∧ t.r75 = s.r75 ∧ t.trapFF = s.trapFF ∧ t.hlda = s.hlda ∧ t.pins = s.pins := by
  have h := (stable_quiet _).exec ⟨hq, rfl⟩ hi he
  have e := h.2
  simp only [State.machine, State.mk.injEq] at e
  exact ⟨h.1, by simp only [e, and_self]⟩

/-- The same of an acceptance. -/
theorem accept_quiet_keeps {q : Request} {s t : State} (hq : s.Quiet) (ha : s.accept q = .next t) :
    t.Quiet ∧ t.r75 = (s.acknowledge q).r75 ∧ t.trapFF = (s.acknowledge q).trapFF ∧ t.hlda = s.hlda ∧ t.pins = s.pins := by
  have h := (stable_quiet _).accept (q := q) (s := s) ⟨by cases q <;> exact hq, rfl⟩ ha
  have e := h.2
  simp only [State.machine, State.mk.injEq] at e
  have hk : (s.acknowledge q).hlda = s.hlda ∧ (s.acknowledge q).pins = s.pins := by cases q <;> exact ⟨rfl, rfl⟩
  exact ⟨h.1, by simp only [e, hk, and_self]⟩

/-- An instruction is one of the five, or writes no flip-flop. -/
theorem writesFlipFlop_cases (i : Instr) :
    i = .ei ∨ i = .di ∨ i = .hlt ∨ i = .rim ∨ i = .sim ∨ writesFlipFlop i = false := by
  cases i <;> simp [writesFlipFlop]

end Sys2Proof.Machine
end

