-- ==== Sys2Proof/Laws/PerInstr.lean ====
section
/-! SUPPORT. The family TableRow: an instruction's encoding is in its row of spec/opcode_table.json, by the row's mask, match and
length, copied here from the table. -/

namespace Sys2Proof.Laws

/-- A row of the opcode table: mask and match of the first byte, and the length in bytes. -/
structure Row where
  mask : Byte
  value : Byte
  length : Nat

/-- The row of each instruction. -/
def rowOf : Instr → Row
  | .movRR _ _ => ⟨0xC0, 0x40, 1⟩
  | .movMR _ => ⟨0xF8, 0x70, 1⟩
  | .movRM _ => ⟨0xC7, 0x46, 1⟩
  | .mviR _ _ => ⟨0xC7, 0x06, 2⟩
  | .mviM _ => ⟨0xFF, 0x36, 2⟩
  | .lxiB _ => ⟨0xFF, 0x01, 3⟩
  | .lxiD _ => ⟨0xFF, 0x11, 3⟩
  | .lxiH _ => ⟨0xFF, 0x21, 3⟩
  | .staxB => ⟨0xFF, 0x02, 1⟩
  | .staxD => ⟨0xFF, 0x12, 1⟩
  | .ldaxB => ⟨0xFF, 0x0A, 1⟩
  | .ldaxD => ⟨0xFF, 0x1A, 1⟩
  | .sta _ => ⟨0xFF, 0x32, 3⟩
  | .lda _ => ⟨0xFF, 0x3A, 3⟩
  | .shld _ => ⟨0xFF, 0x22, 3⟩
  | .lhld _ => ⟨0xFF, 0x2A, 3⟩
  | .xchg => ⟨0xFF, 0xEB, 1⟩
  | .pushB => ⟨0xFF, 0xC5, 1⟩
  | .pushD => ⟨0xFF, 0xD5, 1⟩
  | .pushH => ⟨0xFF, 0xE5, 1⟩
  | .pushPSW => ⟨0xFF, 0xF5, 1⟩
  | .popB => ⟨0xFF, 0xC1, 1⟩
  | .popD => ⟨0xFF, 0xD1, 1⟩
  | .popH => ⟨0xFF, 0xE1, 1⟩
  | .popPSW => ⟨0xFF, 0xF1, 1⟩
  | .xthl => ⟨0xFF, 0xE3, 1⟩
  | .sphl => ⟨0xFF, 0xF9, 1⟩
  | .lxiSP _ => ⟨0xFF, 0x31, 3⟩
  | .inxSP => ⟨0xFF, 0x33, 1⟩
  | .dcxSP => ⟨0xFF, 0x3B, 1⟩
  | .jmp _ => ⟨0xFF, 0xC3, 3⟩
  | .jc _ => ⟨0xFF, 0xDA, 3⟩
  | .jnc _ => ⟨0xFF, 0xD2, 3⟩
  | .jz _ => ⟨0xFF, 0xCA, 3⟩
  | .jnz _ => ⟨0xFF, 0xC2, 3⟩
  | .jp _ => ⟨0xFF, 0xF2, 3⟩
  | .jm _ => ⟨0xFF, 0xFA, 3⟩
  | .jpe _ => ⟨0xFF, 0xEA, 3⟩
  | .jpo _ => ⟨0xFF, 0xE2, 3⟩
  | .pchl => ⟨0xFF, 0xE9, 1⟩
  | .call _ => ⟨0xFF, 0xCD, 3⟩
  | .cc _ => ⟨0xFF, 0xDC, 3⟩
  | .cnc _ => ⟨0xFF, 0xD4, 3⟩
  | .cz _ => ⟨0xFF, 0xCC, 3⟩
  | .cnz _ => ⟨0xFF, 0xC4, 3⟩
  | .cp _ => ⟨0xFF, 0xF4, 3⟩
  | .cm _ => ⟨0xFF, 0xFC, 3⟩
  | .cpe _ => ⟨0xFF, 0xEC, 3⟩
  | .cpo _ => ⟨0xFF, 0xE4, 3⟩
  | .ret => ⟨0xFF, 0xC9, 1⟩
  | .rc => ⟨0xFF, 0xD8, 1⟩
  | .rnc => ⟨0xFF, 0xD0, 1⟩
  | .rz => ⟨0xFF, 0xC8, 1⟩
  | .rnz => ⟨0xFF, 0xC0, 1⟩
  | .rp => ⟨0xFF, 0xF0, 1⟩
  | .rm => ⟨0xFF, 0xF8, 1⟩
  | .rpe => ⟨0xFF, 0xE8, 1⟩
  | .rpo => ⟨0xFF, 0xE0, 1⟩
  | .rst _ => ⟨0xC7, 0xC7, 1⟩
  | .inp _ => ⟨0xFF, 0xDB, 2⟩
  | .out _ => ⟨0xFF, 0xD3, 2⟩
  | .inrR _ => ⟨0xC7, 0x04, 1⟩
  | .dcrR _ => ⟨0xC7, 0x05, 1⟩
  | .inrM => ⟨0xFF, 0x34, 1⟩
  | .dcrM => ⟨0xFF, 0x35, 1⟩
  | .inxB => ⟨0xFF, 0x03, 1⟩
  | .inxD => ⟨0xFF, 0x13, 1⟩
  | .inxH => ⟨0xFF, 0x23, 1⟩
  | .dcxB => ⟨0xFF, 0x0B, 1⟩
  | .dcxD => ⟨0xFF, 0x1B, 1⟩
  | .dcxH => ⟨0xFF, 0x2B, 1⟩
  | .addR _ => ⟨0xF8, 0x80, 1⟩
  | .adcR _ => ⟨0xF8, 0x88, 1⟩
  | .addM => ⟨0xFF, 0x86, 1⟩
  | .adcM => ⟨0xFF, 0x8E, 1⟩
  | .adi _ => ⟨0xFF, 0xC6, 2⟩
  | .aci _ => ⟨0xFF, 0xCE, 2⟩
  | .dadB => ⟨0xFF, 0x09, 1⟩
  | .dadD => ⟨0xFF, 0x19, 1⟩
  | .dadH => ⟨0xFF, 0x29, 1⟩
  | .dadSP => ⟨0xFF, 0x39, 1⟩
  | .subR _ => ⟨0xF8, 0x90, 1⟩
  | .sbbR _ => ⟨0xF8, 0x98, 1⟩
  | .subM => ⟨0xFF, 0x96, 1⟩
  | .sbbM => ⟨0xFF, 0x9E, 1⟩
  | .sui _ => ⟨0xFF, 0xD6, 2⟩
  | .sbi _ => ⟨0xFF, 0xDE, 2⟩
  | .anaR _ => ⟨0xF8, 0xA0, 1⟩
  | .xraR _ => ⟨0xF8, 0xA8, 1⟩
  | .oraR _ => ⟨0xF8, 0xB0, 1⟩
  | .cmpR _ => ⟨0xF8, 0xB8, 1⟩
  | .anaM => ⟨0xFF, 0xA6, 1⟩
  | .xraM => ⟨0xFF, 0xAE, 1⟩
  | .oraM => ⟨0xFF, 0xB6, 1⟩
  | .cmpM => ⟨0xFF, 0xBE, 1⟩
  | .ani _ => ⟨0xFF, 0xE6, 2⟩
  | .xri _ => ⟨0xFF, 0xEE, 2⟩
  | .ori _ => ⟨0xFF, 0xF6, 2⟩
  | .cpi _ => ⟨0xFF, 0xFE, 2⟩
  | .rlc => ⟨0xFF, 0x07, 1⟩
  | .rrc => ⟨0xFF, 0x0F, 1⟩
  | .ral => ⟨0xFF, 0x17, 1⟩
  | .rar => ⟨0xFF, 0x1F, 1⟩
  | .cma => ⟨0xFF, 0x2F, 1⟩
  | .stc => ⟨0xFF, 0x37, 1⟩
  | .cmc => ⟨0xFF, 0x3F, 1⟩
  | .daa => ⟨0xFF, 0x27, 1⟩
  | .ei => ⟨0xFF, 0xFB, 1⟩
  | .di => ⟨0xFF, 0xF3, 1⟩
  | .nop => ⟨0xFF, 0x00, 1⟩
  | .hlt => ⟨0xFF, 0x76, 1⟩
  | .rim => ⟨0xFF, 0x20, 1⟩
  | .sim => ⟨0xFF, 0x30, 1⟩

/-- An instruction's encoding is in its row of the opcode table. -/
def TableRow.Statement (i : Instr) : Prop :=
  i.WellFormed → ∃ op rest, encode i = op :: rest ∧ op &&& (rowOf i).mask = (rowOf i).value ∧ i.length = (rowOf i).length

theorem TableRow.movRR (dst : Reg) (src : Reg) : TableRow.Statement (.movRR dst src) := by cases dst <;> cases src <;> exact fun _ => ⟨_, _, rfl, rfl, rfl⟩
theorem TableRow.movMR (src : Reg) : TableRow.Statement (.movMR src) := by cases src <;> exact fun _ => ⟨_, _, rfl, rfl, rfl⟩
theorem TableRow.movRM (dst : Reg) : TableRow.Statement (.movRM dst) := by cases dst <;> exact fun _ => ⟨_, _, rfl, rfl, rfl⟩
theorem TableRow.mviR (dst : Reg) (data : Byte) : TableRow.Statement (.mviR dst data) := by cases dst <;> exact fun _ => ⟨_, _, rfl, by simp only [rowOf]; decide, rfl⟩
theorem TableRow.mviM (data : Byte) : TableRow.Statement (.mviM data) := fun _ => ⟨_, _, rfl, by simp only [rowOf]; decide, rfl⟩
theorem TableRow.lxiB (data : Word) : TableRow.Statement (.lxiB data) := fun _ => ⟨_, _, rfl, by simp only [rowOf]; decide, rfl⟩
theorem TableRow.lxiD (data : Word) : TableRow.Statement (.lxiD data) := fun _ => ⟨_, _, rfl, by simp only [rowOf]; decide, rfl⟩
theorem TableRow.lxiH (data : Word) : TableRow.Statement (.lxiH data) := fun _ => ⟨_, _, rfl, by simp only [rowOf]; decide, rfl⟩
theorem TableRow.staxB : TableRow.Statement .staxB := fun _ => ⟨_, _, rfl, rfl, rfl⟩
theorem TableRow.staxD : TableRow.Statement .staxD := fun _ => ⟨_, _, rfl, rfl, rfl⟩
theorem TableRow.ldaxB : TableRow.Statement .ldaxB := fun _ => ⟨_, _, rfl, rfl, rfl⟩
theorem TableRow.ldaxD : TableRow.Statement .ldaxD := fun _ => ⟨_, _, rfl, rfl, rfl⟩
theorem TableRow.sta (addr : Word) : TableRow.Statement (.sta addr) := fun _ => ⟨_, _, rfl, by simp only [rowOf]; decide, rfl⟩
theorem TableRow.lda (addr : Word) : TableRow.Statement (.lda addr) := fun _ => ⟨_, _, rfl, by simp only [rowOf]; decide, rfl⟩
theorem TableRow.shld (addr : Word) : TableRow.Statement (.shld addr) := fun _ => ⟨_, _, rfl, by simp only [rowOf]; decide, rfl⟩
theorem TableRow.lhld (addr : Word) : TableRow.Statement (.lhld addr) := fun _ => ⟨_, _, rfl, by simp only [rowOf]; decide, rfl⟩
theorem TableRow.xchg : TableRow.Statement .xchg := fun _ => ⟨_, _, rfl, rfl, rfl⟩
theorem TableRow.pushB : TableRow.Statement .pushB := fun _ => ⟨_, _, rfl, rfl, rfl⟩
theorem TableRow.pushD : TableRow.Statement .pushD := fun _ => ⟨_, _, rfl, rfl, rfl⟩
theorem TableRow.pushH : TableRow.Statement .pushH := fun _ => ⟨_, _, rfl, rfl, rfl⟩
theorem TableRow.pushPSW : TableRow.Statement .pushPSW := fun _ => ⟨_, _, rfl, rfl, rfl⟩
theorem TableRow.popB : TableRow.Statement .popB := fun _ => ⟨_, _, rfl, rfl, rfl⟩
theorem TableRow.popD : TableRow.Statement .popD := fun _ => ⟨_, _, rfl, rfl, rfl⟩
theorem TableRow.popH : TableRow.Statement .popH := fun _ => ⟨_, _, rfl, rfl, rfl⟩
theorem TableRow.popPSW : TableRow.Statement .popPSW := fun _ => ⟨_, _, rfl, rfl, rfl⟩
theorem TableRow.xthl : TableRow.Statement .xthl := fun _ => ⟨_, _, rfl, rfl, rfl⟩
theorem TableRow.sphl : TableRow.Statement .sphl := fun _ => ⟨_, _, rfl, rfl, rfl⟩
theorem TableRow.lxiSP (data : Word) : TableRow.Statement (.lxiSP data) := fun _ => ⟨_, _, rfl, by simp only [rowOf]; decide, rfl⟩
theorem TableRow.inxSP : TableRow.Statement .inxSP := fun _ => ⟨_, _, rfl, rfl, rfl⟩
theorem TableRow.dcxSP : TableRow.Statement .dcxSP := fun _ => ⟨_, _, rfl, rfl, rfl⟩
theorem TableRow.jmp (addr : Word) : TableRow.Statement (.jmp addr) := fun _ => ⟨_, _, rfl, by simp only [rowOf]; decide, rfl⟩
theorem TableRow.jc (addr : Word) : TableRow.Statement (.jc addr) := fun _ => ⟨_, _, rfl, by simp only [rowOf]; decide, rfl⟩
theorem TableRow.jnc (addr : Word) : TableRow.Statement (.jnc addr) := fun _ => ⟨_, _, rfl, by simp only [rowOf]; decide, rfl⟩
theorem TableRow.jz (addr : Word) : TableRow.Statement (.jz addr) := fun _ => ⟨_, _, rfl, by simp only [rowOf]; decide, rfl⟩
theorem TableRow.jnz (addr : Word) : TableRow.Statement (.jnz addr) := fun _ => ⟨_, _, rfl, by simp only [rowOf]; decide, rfl⟩
theorem TableRow.jp (addr : Word) : TableRow.Statement (.jp addr) := fun _ => ⟨_, _, rfl, by simp only [rowOf]; decide, rfl⟩
theorem TableRow.jm (addr : Word) : TableRow.Statement (.jm addr) := fun _ => ⟨_, _, rfl, by simp only [rowOf]; decide, rfl⟩
theorem TableRow.jpe (addr : Word) : TableRow.Statement (.jpe addr) := fun _ => ⟨_, _, rfl, by simp only [rowOf]; decide, rfl⟩
theorem TableRow.jpo (addr : Word) : TableRow.Statement (.jpo addr) := fun _ => ⟨_, _, rfl, by simp only [rowOf]; decide, rfl⟩
theorem TableRow.pchl : TableRow.Statement .pchl := fun _ => ⟨_, _, rfl, rfl, rfl⟩
theorem TableRow.call (addr : Word) : TableRow.Statement (.call addr) := fun _ => ⟨_, _, rfl, by simp only [rowOf]; decide, rfl⟩
theorem TableRow.cc (addr : Word) : TableRow.Statement (.cc addr) := fun _ => ⟨_, _, rfl, by simp only [rowOf]; decide, rfl⟩
theorem TableRow.cnc (addr : Word) : TableRow.Statement (.cnc addr) := fun _ => ⟨_, _, rfl, by simp only [rowOf]; decide, rfl⟩
theorem TableRow.cz (addr : Word) : TableRow.Statement (.cz addr) := fun _ => ⟨_, _, rfl, by simp only [rowOf]; decide, rfl⟩
theorem TableRow.cnz (addr : Word) : TableRow.Statement (.cnz addr) := fun _ => ⟨_, _, rfl, by simp only [rowOf]; decide, rfl⟩
theorem TableRow.cp (addr : Word) : TableRow.Statement (.cp addr) := fun _ => ⟨_, _, rfl, by simp only [rowOf]; decide, rfl⟩
theorem TableRow.cm (addr : Word) : TableRow.Statement (.cm addr) := fun _ => ⟨_, _, rfl, by simp only [rowOf]; decide, rfl⟩
theorem TableRow.cpe (addr : Word) : TableRow.Statement (.cpe addr) := fun _ => ⟨_, _, rfl, by simp only [rowOf]; decide, rfl⟩
theorem TableRow.cpo (addr : Word) : TableRow.Statement (.cpo addr) := fun _ => ⟨_, _, rfl, by simp only [rowOf]; decide, rfl⟩
theorem TableRow.ret : TableRow.Statement .ret := fun _ => ⟨_, _, rfl, rfl, rfl⟩
theorem TableRow.rc : TableRow.Statement .rc := fun _ => ⟨_, _, rfl, rfl, rfl⟩
theorem TableRow.rnc : TableRow.Statement .rnc := fun _ => ⟨_, _, rfl, rfl, rfl⟩
theorem TableRow.rz : TableRow.Statement .rz := fun _ => ⟨_, _, rfl, rfl, rfl⟩
theorem TableRow.rnz : TableRow.Statement .rnz := fun _ => ⟨_, _, rfl, rfl, rfl⟩
theorem TableRow.rp : TableRow.Statement .rp := fun _ => ⟨_, _, rfl, rfl, rfl⟩
theorem TableRow.rm : TableRow.Statement .rm := fun _ => ⟨_, _, rfl, rfl, rfl⟩
theorem TableRow.rpe : TableRow.Statement .rpe := fun _ => ⟨_, _, rfl, rfl, rfl⟩
theorem TableRow.rpo : TableRow.Statement .rpo := fun _ => ⟨_, _, rfl, rfl, rfl⟩
theorem TableRow.rst (n : Nat) : TableRow.Statement (.rst n) := by
  intro h
  have hn : n < 8 := of_decide_eq_true h
  match n, hn with
  | 0, _ => exact ⟨0xC7, [], rfl, rfl, rfl⟩
  | 1, _ => exact ⟨0xCF, [], rfl, rfl, rfl⟩
  | 2, _ => exact ⟨0xD7, [], rfl, rfl, rfl⟩
  | 3, _ => exact ⟨0xDF, [], rfl, rfl, rfl⟩
  | 4, _ => exact ⟨0xE7, [], rfl, rfl, rfl⟩
  | 5, _ => exact ⟨0xEF, [], rfl, rfl, rfl⟩
  | 6, _ => exact ⟨0xF7, [], rfl, rfl, rfl⟩
  | 7, _ => exact ⟨0xFF, [], rfl, rfl, rfl⟩
theorem TableRow.inp (port : Byte) : TableRow.Statement (.inp port) := fun _ => ⟨_, _, rfl, by simp only [rowOf]; decide, rfl⟩
theorem TableRow.out (port : Byte) : TableRow.Statement (.out port) := fun _ => ⟨_, _, rfl, by simp only [rowOf]; decide, rfl⟩
theorem TableRow.inrR (dst : Reg) : TableRow.Statement (.inrR dst) := by cases dst <;> exact fun _ => ⟨_, _, rfl, rfl, rfl⟩
theorem TableRow.dcrR (dst : Reg) : TableRow.Statement (.dcrR dst) := by cases dst <;> exact fun _ => ⟨_, _, rfl, rfl, rfl⟩
theorem TableRow.inrM : TableRow.Statement .inrM := fun _ => ⟨_, _, rfl, rfl, rfl⟩
theorem TableRow.dcrM : TableRow.Statement .dcrM := fun _ => ⟨_, _, rfl, rfl, rfl⟩
theorem TableRow.inxB : TableRow.Statement .inxB := fun _ => ⟨_, _, rfl, rfl, rfl⟩
theorem TableRow.inxD : TableRow.Statement .inxD := fun _ => ⟨_, _, rfl, rfl, rfl⟩
theorem TableRow.inxH : TableRow.Statement .inxH := fun _ => ⟨_, _, rfl, rfl, rfl⟩
theorem TableRow.dcxB : TableRow.Statement .dcxB := fun _ => ⟨_, _, rfl, rfl, rfl⟩
theorem TableRow.dcxD : TableRow.Statement .dcxD := fun _ => ⟨_, _, rfl, rfl, rfl⟩
theorem TableRow.dcxH : TableRow.Statement .dcxH := fun _ => ⟨_, _, rfl, rfl, rfl⟩
theorem TableRow.addR (src : Reg) : TableRow.Statement (.addR src) := by cases src <;> exact fun _ => ⟨_, _, rfl, rfl, rfl⟩
theorem TableRow.adcR (src : Reg) : TableRow.Statement (.adcR src) := by cases src <;> exact fun _ => ⟨_, _, rfl, rfl, rfl⟩
theorem TableRow.addM : TableRow.Statement .addM := fun _ => ⟨_, _, rfl, rfl, rfl⟩
theorem TableRow.adcM : TableRow.Statement .adcM := fun _ => ⟨_, _, rfl, rfl, rfl⟩
theorem TableRow.adi (data : Byte) : TableRow.Statement (.adi data) := fun _ => ⟨_, _, rfl, by simp only [rowOf]; decide, rfl⟩
theorem TableRow.aci (data : Byte) : TableRow.Statement (.aci data) := fun _ => ⟨_, _, rfl, by simp only [rowOf]; decide, rfl⟩
theorem TableRow.dadB : TableRow.Statement .dadB := fun _ => ⟨_, _, rfl, rfl, rfl⟩
theorem TableRow.dadD : TableRow.Statement .dadD := fun _ => ⟨_, _, rfl, rfl, rfl⟩
theorem TableRow.dadH : TableRow.Statement .dadH := fun _ => ⟨_, _, rfl, rfl, rfl⟩
theorem TableRow.dadSP : TableRow.Statement .dadSP := fun _ => ⟨_, _, rfl, rfl, rfl⟩
theorem TableRow.subR (src : Reg) : TableRow.Statement (.subR src) := by cases src <;> exact fun _ => ⟨_, _, rfl, rfl, rfl⟩
theorem TableRow.sbbR (src : Reg) : TableRow.Statement (.sbbR src) := by cases src <;> exact fun _ => ⟨_, _, rfl, rfl, rfl⟩
theorem TableRow.subM : TableRow.Statement .subM := fun _ => ⟨_, _, rfl, rfl, rfl⟩
theorem TableRow.sbbM : TableRow.Statement .sbbM := fun _ => ⟨_, _, rfl, rfl, rfl⟩
theorem TableRow.sui (data : Byte) : TableRow.Statement (.sui data) := fun _ => ⟨_, _, rfl, by simp only [rowOf]; decide, rfl⟩
theorem TableRow.sbi (data : Byte) : TableRow.Statement (.sbi data) := fun _ => ⟨_, _, rfl, by simp only [rowOf]; decide, rfl⟩
theorem TableRow.anaR (src : Reg) : TableRow.Statement (.anaR src) := by cases src <;> exact fun _ => ⟨_, _, rfl, rfl, rfl⟩
theorem TableRow.xraR (src : Reg) : TableRow.Statement (.xraR src) := by cases src <;> exact fun _ => ⟨_, _, rfl, rfl, rfl⟩
theorem TableRow.oraR (src : Reg) : TableRow.Statement (.oraR src) := by cases src <;> exact fun _ => ⟨_, _, rfl, rfl, rfl⟩
theorem TableRow.cmpR (src : Reg) : TableRow.Statement (.cmpR src) := by cases src <;> exact fun _ => ⟨_, _, rfl, rfl, rfl⟩
theorem TableRow.anaM : TableRow.Statement .anaM := fun _ => ⟨_, _, rfl, rfl, rfl⟩
theorem TableRow.xraM : TableRow.Statement .xraM := fun _ => ⟨_, _, rfl, rfl, rfl⟩
theorem TableRow.oraM : TableRow.Statement .oraM := fun _ => ⟨_, _, rfl, rfl, rfl⟩
theorem TableRow.cmpM : TableRow.Statement .cmpM := fun _ => ⟨_, _, rfl, rfl, rfl⟩
theorem TableRow.ani (data : Byte) : TableRow.Statement (.ani data) := fun _ => ⟨_, _, rfl, by simp only [rowOf]; decide, rfl⟩
theorem TableRow.xri (data : Byte) : TableRow.Statement (.xri data) := fun _ => ⟨_, _, rfl, by simp only [rowOf]; decide, rfl⟩
theorem TableRow.ori (data : Byte) : TableRow.Statement (.ori data) := fun _ => ⟨_, _, rfl, by simp only [rowOf]; decide, rfl⟩
theorem TableRow.cpi (data : Byte) : TableRow.Statement (.cpi data) := fun _ => ⟨_, _, rfl, by simp only [rowOf]; decide, rfl⟩
theorem TableRow.rlc : TableRow.Statement .rlc := fun _ => ⟨_, _, rfl, rfl, rfl⟩
theorem TableRow.rrc : TableRow.Statement .rrc := fun _ => ⟨_, _, rfl, rfl, rfl⟩
theorem TableRow.ral : TableRow.Statement .ral := fun _ => ⟨_, _, rfl, rfl, rfl⟩
theorem TableRow.rar : TableRow.Statement .rar := fun _ => ⟨_, _, rfl, rfl, rfl⟩
theorem TableRow.cma : TableRow.Statement .cma := fun _ => ⟨_, _, rfl, rfl, rfl⟩
theorem TableRow.stc : TableRow.Statement .stc := fun _ => ⟨_, _, rfl, rfl, rfl⟩
theorem TableRow.cmc : TableRow.Statement .cmc := fun _ => ⟨_, _, rfl, rfl, rfl⟩
theorem TableRow.daa : TableRow.Statement .daa := fun _ => ⟨_, _, rfl, rfl, rfl⟩
theorem TableRow.ei : TableRow.Statement .ei := fun _ => ⟨_, _, rfl, rfl, rfl⟩
theorem TableRow.di : TableRow.Statement .di := fun _ => ⟨_, _, rfl, rfl, rfl⟩
theorem TableRow.nop : TableRow.Statement .nop := fun _ => ⟨_, _, rfl, rfl, rfl⟩
theorem TableRow.hlt : TableRow.Statement .hlt := fun _ => ⟨_, _, rfl, rfl, rfl⟩
theorem TableRow.rim : TableRow.Statement .rim := fun _ => ⟨_, _, rfl, rfl, rfl⟩
theorem TableRow.sim : TableRow.Statement .sim := fun _ => ⟨_, _, rfl, rfl, rfl⟩

end Sys2Proof.Laws
end

