-- ==== Sys2Proof/Tests/Slice0.lean ====
section
/-! SUPPORT. The model's own tests: decoding by words written out from the spec's encodings, single steps with the results that
spec/95_test_vectors.md and the scenarios of spec/60_exceptions.md R300 give, and, for every obligation with hypotheses, a
concrete state and operands that meet them. -/

namespace Sys2Proof.Machine.Tests

open Sys2Proof

/-! ### Well-formedness -/

/-- The one check refuses an ill-formed term and passes the largest well-formed one. -/
theorem test_wellFormed_rst : (Instr.rst 8).wellFormed = false ∧ (Instr.rst 7).wellFormed = true := by decide

/-! ### Decoding: bytes written out bit by bit from the rows of spec/30_encoding.md R108 -/

/-- Each byte sequence decodes to its instruction, with nothing left. -/
abbrev decodesTo (l : List (List Byte × Instr)) : Prop := ∀ p ∈ l, decode p.1 = .ok p.2 []

theorem test_decode_moves_loads_stores : decodesTo [
    ([0b01000111], (.movRR .b .a)), ([0b01110010], (.movMR .d)), ([0b01100110], (.movRM .h)),
    ([0b00111110, 0x9A], (.mviR .a 0x9A)), ([0b00110110, 0x9A], (.mviM 0x9A)), ([0b00000001, 0x71, 0x2C], (.lxiB 0x2C71)),
    ([0b00010001, 0x71, 0x2C], (.lxiD 0x2C71)), ([0b00100001, 0x71, 0x2C], (.lxiH 0x2C71)), ([0b00000010], .staxB),
    ([0b00010010], .staxD), ([0b00001010], .ldaxB), ([0b00011010], .ldaxD), ([0b00110010, 0x71, 0x2C], (.sta 0x2C71)),
    ([0b00111010, 0x71, 0x2C], (.lda 0x2C71)), ([0b00100010, 0x71, 0x2C], (.shld 0x2C71)),
    ([0b00101010, 0x71, 0x2C], (.lhld 0x2C71)), ([0b11101011], .xchg)] := by decide

theorem test_decode_stack : decodesTo [
    ([0b11000101], .pushB), ([0b11010101], .pushD), ([0b11100101], .pushH), ([0b11110101], .pushPSW), ([0b11000001], .popB),
    ([0b11010001], .popD), ([0b11100001], .popH), ([0b11110001], .popPSW), ([0b11100011], .xthl), ([0b11111001], .sphl),
    ([0b00110001, 0x71, 0x2C], (.lxiSP 0x2C71)), ([0b00110011], .inxSP), ([0b00111011], .dcxSP)] := by decide

theorem test_decode_jumps : decodesTo [
    ([0b11000011, 0x71, 0x2C], (.jmp 0x2C71)), ([0b11011010, 0x71, 0x2C], (.jc 0x2C71)),
    ([0b11010010, 0x71, 0x2C], (.jnc 0x2C71)), ([0b11001010, 0x71, 0x2C], (.jz 0x2C71)),
    ([0b11000010, 0x71, 0x2C], (.jnz 0x2C71)), ([0b11110010, 0x71, 0x2C], (.jp 0x2C71)),
    ([0b11111010, 0x71, 0x2C], (.jm 0x2C71)), ([0b11101010, 0x71, 0x2C], (.jpe 0x2C71)),
    ([0b11100010, 0x71, 0x2C], (.jpo 0x2C71)), ([0b11101001], .pchl)] := by decide

theorem test_decode_calls : decodesTo [
    ([0b11001101, 0x71, 0x2C], (.call 0x2C71)), ([0b11011100, 0x71, 0x2C], (.cc 0x2C71)),
    ([0b11010100, 0x71, 0x2C], (.cnc 0x2C71)), ([0b11001100, 0x71, 0x2C], (.cz 0x2C71)),
    ([0b11000100, 0x71, 0x2C], (.cnz 0x2C71)), ([0b11110100, 0x71, 0x2C], (.cp 0x2C71)),
    ([0b11111100, 0x71, 0x2C], (.cm 0x2C71)), ([0b11101100, 0x71, 0x2C], (.cpe 0x2C71)),
    ([0b11100100, 0x71, 0x2C], (.cpo 0x2C71))] := by decide

theorem test_decode_returns_restart : decodesTo [
    ([0b11001001], .ret), ([0b11011000], .rc), ([0b11010000], .rnc), ([0b11001000], .rz), ([0b11000000], .rnz),
    ([0b11110000], .rp), ([0b11111000], .rm), ([0b11101000], .rpe), ([0b11100000], .rpo), ([0b11101111], (.rst 5))] := by decide

theorem test_decode_input_output : decodesTo [
    ([0b11011011, 0x9A], (.inp 0x9A)), ([0b11010011, 0x9A], (.out 0x9A))] := by decide

theorem test_decode_increments : decodesTo [
    ([0b00011100], (.inrR .e)), ([0b00101101], (.dcrR .l)), ([0b00110100], .inrM), ([0b00110101], .dcrM),
    ([0b00000011], .inxB), ([0b00010011], .inxD), ([0b00100011], .inxH), ([0b00001011], .dcxB), ([0b00011011], .dcxD),
    ([0b00101011], .dcxH)] := by decide

theorem test_decode_add_subtract : decodesTo [
    ([0b10000010], (.addR .d)), ([0b10001100], (.adcR .h)), ([0b10000110], .addM), ([0b10001110], .adcM),
    ([0b11000110, 0x9A], (.adi 0x9A)), ([0b11001110, 0x9A], (.aci 0x9A)), ([0b00001001], .dadB), ([0b00011001], .dadD),
    ([0b00101001], .dadH), ([0b00111001], .dadSP), ([0b10010001], (.subR .c)), ([0b10011011], (.sbbR .e)),
    ([0b10010110], .subM), ([0b10011110], .sbbM), ([0b11010110, 0x9A], (.sui 0x9A)), ([0b11011110, 0x9A], (.sbi 0x9A))] := by decide

theorem test_decode_logical : decodesTo [
    ([0b10100111], (.anaR .a)), ([0b10101001], (.xraR .c)), ([0b10110011], (.oraR .e)), ([0b10111101], (.cmpR .l)),
    ([0b10100110], .anaM), ([0b10101110], .xraM), ([0b10110110], .oraM), ([0b10111110], .cmpM),
    ([0b11100110, 0x9A], (.ani 0x9A)), ([0b11101110, 0x9A], (.xri 0x9A)), ([0b11110110, 0x9A], (.ori 0x9A)),
    ([0b11111110, 0x9A], (.cpi 0x9A))] := by decide

theorem test_decode_rotates_specials : decodesTo [
    ([0b00000111], .rlc), ([0b00001111], .rrc), ([0b00010111], .ral), ([0b00011111], .rar), ([0b00101111], .cma),
    ([0b00110111], .stc), ([0b00111111], .cmc), ([0b00100111], .daa)] := by decide

theorem test_decode_control : decodesTo [
    ([0b11111011], .ei), ([0b11110011], .di), ([0b00000000], .nop), ([0b01110110], .hlt), ([0b00100000], .rim),
    ([0b00110000], .sim)] := by decide

/-- The ten bytes of R110 are refused by name, and a cut instruction is not one. -/
theorem test_decode_refused : (∀ op ∈ ([0x08, 0x10, 0x18, 0x28, 0x38, 0xCB, 0xD9, 0xDD, 0xED, 0xFD] : List Byte),
    decode [op, 0, 0] = .unusedOpcode op) ∧ decode [] = .truncated ∧ decode [0x3E] = .truncated ∧
    decode [0xC3, 0x00] = .truncated := by decide

/-- The table's bit numbering: byte 1 in bits 7..0, byte 2 in 15..8, byte 3 in 23..16. -/
theorem test_decodeTableWord : decodeTableWord 24 0x123421 = some (.lxiH 0x1234) ∧
    decodeTableWord 8 0x123421 = some (.lxiH 0) ∧ decodeTableWord 16 0x423E = some (.mviR .a 0x42) ∧
    decodeTableWord 8 0x08 = none := by decide

/-! ### Single steps -/

/-- Bytes put into memory from an address on. -/
def putAt (s : State) (x : Word) : List Byte → State
  | [] => s
  | v :: rest => putAt (s.poke x v) (x + 1) rest

/-- The vectors' start: PC 0100H, SP 2000H. -/
def start : State := { State.reset with pc := 0x0100, sp := 0x2000, starting := false }

/-- What one step shows, the code standing at PC. -/
def ran {α : Type} (s : State) (code : List Byte) (f : State → α) : Option α :=
  match step (putAt s s.pc code) with
  | .next t => some (f t)
  | _ => none

/-- Flags S Z AC P CY written as five digits. -/
def fl (n : Nat) : Flags :=
  ⟨n / 10000 % 10 == 1, n / 1000 % 10 == 1, n / 100 % 10 == 1, n / 10 % 10 == 1, n % 10 == 1⟩

/-- A and the flags after an instruction on A and a register that holds the operand. -/
def aluR (a v : Byte) (cy : Bool) (code : List Byte) : Option (Byte × Flags) :=
  ran { start with a := a, b := v, c := v, e := v, l := v, flags := ⟨false, false, false, false, cy⟩ } code
    fun t => (t.a, t.flags)

/-- The same with the operand in memory at HL = 2050H. -/
def aluM (a v : Byte) (cy : Bool) (code : List Byte) : Option (Byte × Flags) :=
  ran (putAt { start with a := a, h := 0x20, l := 0x50, flags := ⟨false, false, false, false, cy⟩ } 0x2050 [v]) code
    fun t => (t.a, t.flags)

/-- The same with the operand in the instruction. -/
def aluI (a : Byte) (cy : Bool) (code : List Byte) : Option (Byte × Flags) :=
  ran { start with a := a, flags := ⟨false, false, false, false, cy⟩ } code fun t => (t.a, t.flags)

/-- A and the flags after a rotate or special, S Z AC P being 1 before. -/
def rotated (a : Byte) (cy : Bool) (code : List Byte) : Option (Byte × Flags) :=
  ran { start with a := a, flags := ⟨true, true, true, true, cy⟩ } code fun t => (t.a, t.flags)

/-- A and the flags after DAA. -/
def adjusted (a : Byte) (ac cy : Bool) : Option (Byte × Flags) :=
  ran { start with a := a, flags := ⟨false, false, ac, false, cy⟩ } [0x27] fun t => (t.a, t.flags)

/-! spec/95_test_vectors.md 2.1 -/

theorem test_mov_rr : ran { start with c := 0x5A } [0x41] (fun t => (t.b, t.c, t.pc)) = some (0x5A, 0x5A, 0x0101) := by decide

theorem test_mov_mr : ran { start with h := 0x20, l := 0x50 } [0x74] (fun t => t.byteAt 0x2050) = some 0x20 := by decide

/-- The address is formed before H is written. -/
theorem test_mov_rm : ran (putAt { start with h := 0x20, l := 0x50 } 0x2050 [0x99]) [0x66] (fun t => (t.h, t.l)) =
    some (0x99, 0x50) := by decide

theorem test_mvi : ran start [0x0E, 0xFF] (fun t => (t.c, t.pc)) = some (0xFF, 0x0102) ∧
    ran { start with h := 0x30 } [0x36, 0x12] (fun t => t.byteAt 0x3000) = some 0x12 := by decide

/-- An instruction fetched across the wrap of PC. -/
theorem test_mvi_wraps : ran { start with pc := 0xFFFF } [0x3E, 0x42] (fun t => (t.a, t.pc)) = some (0x42, 0x0001) := by decide

theorem test_lxi : ran start [0x21, 0x34, 0x12] (fun t => (t.h, t.l, t.pc)) = some (0x12, 0x34, 0x0103) ∧
    ran start [0x01, 0x34, 0x12] (fun t => (t.b, t.c)) = some (0x12, 0x34) ∧
    ran start [0x11, 0x34, 0x12] (fun t => (t.d, t.e)) = some (0x12, 0x34) ∧
    ran start [0x31, 0xFF, 0x20] (fun t => t.sp) = some 0x20FF := by decide

theorem test_stax_ldax :
    ran { start with a := 0x77, b := 0x40, c := 0x01 } [0x02] (fun t => t.byteAt 0x4001) = some 0x77 ∧
    ran { start with a := 0x77, d := 0x40, e := 0x01 } [0x12] (fun t => t.byteAt 0x4001) = some 0x77 ∧
    ran (putAt { start with b := 0x40, c := 0x02 } 0x4002 [0x5C]) [0x0A] (fun t => t.a) = some 0x5C ∧
    ran (putAt { start with d := 0x40, e := 0x02 } 0x4002 [0x5C]) [0x1A] (fun t => t.a) = some 0x5C := by decide

theorem test_sta_lda : ran { start with a := 0xAB } [0x32, 0x50, 0x20] (fun t => t.byteAt 0x2050) = some 0xAB ∧
    ran (putAt start 0x2050 [0xCD]) [0x3A, 0x50, 0x20] (fun t => t.a) = some 0xCD := by decide

theorem test_shld : ran { start with h := 0xAE, l := 0x29 } [0x22, 0x00, 0x30] (fun t => (t.byteAt 0x3000, t.byteAt 0x3001)) =
    some (0x29, 0xAE) := by decide

/-- The second byte's address wraps. -/
theorem test_lhld : ran (putAt start 0xFFFF [0x11, 0x22]) [0x2A, 0xFF, 0xFF] (fun t => (t.h, t.l)) = some (0x22, 0x11) := by
  decide

theorem test_xchg : ran { start with d := 0x11, e := 0x22, h := 0x33, l := 0x44 } [0xEB] (fun t => (t.d, t.e, t.h, t.l)) =
    some (0x33, 0x44, 0x11, 0x22) := by decide

/-! spec/95_test_vectors.md 2.2 -/

theorem test_push : ran { start with b := 0x12, c := 0x34 } [0xC5] (fun t => (t.byteAt 0x1FFF, t.byteAt 0x1FFE, t.sp)) =
    some (0x12, 0x34, 0x1FFE) ∧
    ran { start with b := 0x12, c := 0x34, sp := 1 } [0xC5] (fun t => (t.byteAt 0x0000, t.byteAt 0xFFFF, t.sp)) =
    some (0x12, 0x34, 0xFFFF) := by decide

theorem test_push_de_hl : ran { start with d := 0x12, e := 0x34 } [0xD5] (fun t => (t.byteAt 0x1FFF, t.byteAt 0x1FFE)) =
    some (0x12, 0x34) ∧ ran { start with h := 0x12, l := 0x34 } [0xE5] (fun t => (t.byteAt 0x1FFF, t.byteAt 0x1FFE)) =
    some (0x12, 0x34) := by decide

/-- The x bits are the next free value's: 0 0 0 and 1 1 1. -/
theorem test_push_psw :
    ran { start with a := 0x1F, flags := fl 10101, env := { start.env with choices := [0x00] } } [0xF5]
      (fun t => (t.byteAt 0x1FFF, t.byteAt 0x1FFE, t.sp)) = some (0x1F, 0x91, 0x1FFE) ∧
    ran { start with a := 0x1F, flags := fl 10101, env := { start.env with choices := [0xFF] } } [0xF5]
      (fun t => t.byteAt 0x1FFE) = some 0xBB := by decide

theorem test_pop : ran (putAt { start with sp := 0x1FFE } 0x1FFE [0x34, 0x12]) [0xD1] (fun t => (t.d, t.e, t.sp)) =
    some (0x12, 0x34, 0x2000) ∧
    ran (putAt { start with sp := 0x1FFE } 0x1FFE [0x34, 0x12]) [0xC1] (fun t => (t.b, t.c)) = some (0x12, 0x34) ∧
    ran (putAt { start with sp := 0xFFFF } 0xFFFF [0x34, 0x12]) [0xE1] (fun t => (t.h, t.l, t.sp)) =
    some (0x12, 0x34, 0x0001) := by decide

theorem test_pop_psw : ran (putAt { start with sp := 0x1FFE } 0x1FFE [0xFF, 0x80]) [0xF1] (fun t => (t.a, t.flags, t.sp)) =
    some (0x80, fl 11111, 0x2000) ∧
    ran (putAt { start with sp := 0x1FFE, flags := fl 11111 } 0x1FFE [0x2A]) [0xF1] (fun t => t.flags) = some (fl 0) := by
  decide

theorem test_xthl : ran (putAt { start with h := 0x0B, l := 0x3C, sp := 0x10AD } 0x10AD [0xF0, 0x0D]) [0xE3]
    (fun t => (t.h, t.l, t.byteAt 0x10AD, t.byteAt 0x10AE, t.sp)) = some (0x0D, 0xF0, 0x3C, 0x0B, 0x10AD) := by decide

theorem test_sphl_inx_dcx_sp : ran { start with h := 0x50, l := 0x6C } [0xF9] (fun t => t.sp) = some 0x506C ∧
    ran { start with sp := 0xFFFF, flags := fl 10101 } [0x33] (fun t => (t.sp, t.flags)) = some (0x0000, fl 10101) ∧
    ran { start with sp := 0x0000, flags := fl 1010 } [0x3B] (fun t => (t.sp, t.flags)) = some (0xFFFF, fl 1010) := by decide

/-! spec/95_test_vectors.md 2.3 -/

/-- PC after a three-byte jump to 3E00H, with its flag 1 and with it 0. -/
def jumped (op : Byte) (flagsOne flagsZero : Nat) : Option Word × Option Word :=
  (ran { start with flags := fl flagsOne } [op, 0x00, 0x3E] (fun t => t.pc),
   ran { start with flags := fl flagsZero } [op, 0x00, 0x3E] (fun t => t.pc))

theorem test_jmp_pchl : ran start [0xC3, 0x00, 0x3E] (fun t => t.pc) = some 0x3E00 ∧
    ran { start with h := 0x41, l := 0x3E } [0xE9] (fun t => t.pc) = some 0x413E := by decide

theorem test_jc_jnc : jumped 0xDA 1 11110 = (some 0x3E00, some 0x0103) ∧
    jumped 0xD2 1 11110 = (some 0x0103, some 0x3E00) := by decide

theorem test_jz_jnz : jumped 0xCA 01000 10111 = (some 0x3E00, some 0x0103) ∧
    jumped 0xC2 01000 10111 = (some 0x0103, some 0x3E00) := by decide

theorem test_jm_jp : jumped 0xFA 10000 01111 = (some 0x3E00, some 0x0103) ∧
    jumped 0xF2 10000 01111 = (some 0x0103, some 0x3E00) := by decide

theorem test_jpe_jpo : jumped 0xEA 00010 11101 = (some 0x3E00, some 0x0103) ∧
    jumped 0xE2 00010 11101 = (some 0x0103, some 0x3E00) := by decide

theorem test_call : ran start [0xCD, 0x34, 0x12] (fun t => (t.byteAt 0x1FFF, t.byteAt 0x1FFE, t.sp, t.pc)) =
    some (0x01, 0x03, 0x1FFE, 0x1234) := by decide

/-- CALL at FFFEH pushes 0001H. -/
theorem test_call_wraps : ran { start with pc := 0xFFFE } [0xCD, 0x34, 0x12]
    (fun t => (t.byteAt 0x1FFF, t.byteAt 0x1FFE, t.pc)) = some (0x00, 0x01, 0x1234) := by decide

/-- PC and SP after a conditional call of 1234H, with its flag 1 and with it 0. -/
def called (op : Byte) (flagsOne flagsZero : Nat) : Option (Word × Word) × Option (Word × Word) :=
  (ran { start with flags := fl flagsOne } [op, 0x34, 0x12] (fun t => (t.pc, t.sp)),
   ran { start with flags := fl flagsZero } [op, 0x34, 0x12] (fun t => (t.pc, t.sp)))

theorem test_cc_cnc : called 0xDC 1 0 = (some (0x1234, 0x1FFE), some (0x0103, 0x2000)) ∧
    called 0xD4 1 0 = (some (0x0103, 0x2000), some (0x1234, 0x1FFE)) := by decide

theorem test_cz_cnz : called 0xCC 01000 0 = (some (0x1234, 0x1FFE), some (0x0103, 0x2000)) ∧
    called 0xC4 01000 0 = (some (0x0103, 0x2000), some (0x1234, 0x1FFE)) := by decide

theorem test_cm_cp : called 0xFC 10000 0 = (some (0x1234, 0x1FFE), some (0x0103, 0x2000)) ∧
    called 0xF4 10000 0 = (some (0x0103, 0x2000), some (0x1234, 0x1FFE)) := by decide

theorem test_cpe_cpo : called 0xEC 00010 0 = (some (0x1234, 0x1FFE), some (0x0103, 0x2000)) ∧
    called 0xE4 00010 0 = (some (0x0103, 0x2000), some (0x1234, 0x1FFE)) := by decide

/-- PC and SP after a conditional return to 0103H, with its flag 1 and with it 0. -/
def returned (op : Byte) (flagsOne flagsZero : Nat) : Option (Word × Word) × Option (Word × Word) :=
  (ran (putAt { start with sp := 0x1FFE, flags := fl flagsOne } 0x1FFE [0x03, 0x01]) [op] (fun t => (t.pc, t.sp)),
   ran (putAt { start with sp := 0x1FFE, flags := fl flagsZero } 0x1FFE [0x03, 0x01]) [op] (fun t => (t.pc, t.sp)))

theorem test_ret : returned 0xC9 11111 0 = (some (0x0103, 0x2000), some (0x0103, 0x2000)) := by decide

theorem test_rc_rnc : returned 0xD8 1 0 = (some (0x0103, 0x2000), some (0x0101, 0x1FFE)) ∧
    returned 0xD0 1 0 = (some (0x0101, 0x1FFE), some (0x0103, 0x2000)) := by decide

theorem test_rz_rnz : returned 0xC8 01000 0 = (some (0x0103, 0x2000), some (0x0101, 0x1FFE)) ∧
    returned 0xC0 01000 0 = (some (0x0101, 0x1FFE), some (0x0103, 0x2000)) := by decide

theorem test_rm_rp : returned 0xF8 10000 0 = (some (0x0103, 0x2000), some (0x0101, 0x1FFE)) ∧
    returned 0xF0 10000 0 = (some (0x0101, 0x1FFE), some (0x0103, 0x2000)) := by decide

theorem test_rpe_rpo : returned 0xE8 00010 0 = (some (0x0103, 0x2000), some (0x0101, 0x1FFE)) ∧
    returned 0xE0 00010 0 = (some (0x0101, 0x1FFE), some (0x0103, 0x2000)) := by decide

theorem test_rst : ran start [0xEF] (fun t => (t.byteAt 0x1FFF, t.byteAt 0x1FFE, t.sp, t.pc)) =
    some (0x01, 0x01, 0x1FFE, 0x0028) ∧ ran start [0xC7] (fun t => t.pc) = some 0x0000 ∧
    ran start [0xFF] (fun t => t.pc) = some 0x0038 := by decide

/-! spec/95_test_vectors.md 2.4, E4, E5 -/

theorem test_in : ran { start with env := { start.env with ioIn := [0x5A] } } [0xDB, 0x20]
    (fun t => (t.a, t.pc, t.bus.map fun c => (c.kind, c.addr))) =
    some (0x5A, 0x0102, [(.opFetch, some 0x0100), (.memRead, some 0x0101), (.ioRead, some 0x2020)]) := by decide

theorem test_out : ran { start with a := 0xA5 } [0xD3, 0x21]
    (fun t => (t.pc, ioWrites t.bus, busTime t.bus, t.bus.map fun c => c.addr)) =
    some (0x0102, [(0x21, 0xA5)], 10, [some 0x0100, some 0x0101, some 0x2121]) := by decide

/-! spec/95_test_vectors.md 2.5 -/

theorem test_inr : ran { start with b := 0xFF, flags := fl 1 } [0x04] (fun t => (t.b, t.flags)) = some (0x00, fl 01111) ∧
    ran { start with b := 0x7F } [0x04] (fun t => (t.b, t.flags)) = some (0x80, fl 10100) := by decide

theorem test_dcr : ran { start with b := 0x00 } [0x05] (fun t => (t.b, t.flags)) = some (0xFF, fl 10010) ∧
    ran { start with a := 0x21 } [0x3D] (fun t => (t.a, t.flags)) = some (0x20, fl 00100) := by decide

theorem test_inr_m : ran (putAt { start with h := 0x20, l := 0x50 } 0x2050 [0x3F]) [0x34]
    (fun t => (t.byteAt 0x2050, t.flags)) = some (0x40, fl 00100) := by decide

theorem test_dcr_m : ran (putAt { start with h := 0x20, l := 0x50, flags := fl 1 } 0x2050 [0x40]) [0x35]
    (fun t => (t.byteAt 0x2050, t.flags)) = some (0x3F, fl 00011) := by decide

theorem test_inx : ran { start with h := 0xFF, l := 0xFF, flags := fl 10101 } [0x23] (fun t => (t.h, t.l, t.flags)) =
    some (0x00, 0x00, fl 10101) ∧ ran { start with d := 0x38, e := 0xFF } [0x13] (fun t => (t.d, t.e)) = some (0x39, 0x00) ∧
    ran { start with b := 0x38, c := 0xFF } [0x03] (fun t => (t.b, t.c)) = some (0x39, 0x00) := by decide

theorem test_dcx : ran { start with flags := fl 01010 } [0x0B] (fun t => (t.b, t.c, t.flags)) = some (0xFF, 0xFF, fl 01010) ∧
    ran { start with d := 0x98 } [0x1B] (fun t => (t.d, t.e)) = some (0x97, 0xFF) ∧
    ran { start with h := 0x98 } [0x2B] (fun t => (t.h, t.l)) = some (0x97, 0xFF) := by decide

/-! spec/95_test_vectors.md 2.6 -/

theorem test_add_r : aluR 0x6C 0x2E false [0x80] = some (0x9A, fl 10110) ∧
    aluR 0x0F 0x01 true [0x80] = some (0x10, fl 00100) := by decide

theorem test_adc_r : aluR 0x42 0x3D true [0x89] = some (0x80, fl 10100) ∧
    aluR 0xFF 0xFF true [0x89] = some (0xFF, fl 10111) := by decide

theorem test_add_m : aluM 0x10 0xF0 false [0x86] = some (0x00, fl 01011) := by decide

theorem test_adc_m : aluM 0x10 0xEF true [0x8E] = some (0x00, fl 01111) := by decide

theorem test_adi : aluI 0x14 true [0xC6, 0x42] = some (0x56, fl 00010) ∧
    aluI 0x56 false [0xC6, 0xBE] = some (0x14, fl 00111) := by decide

theorem test_aci : aluI 0x14 true [0xCE, 0x42] = some (0x57, fl 00000) ∧
    aluI 0xFF true [0xCE, 0x00] = some (0x00, fl 01111) := by decide

theorem test_sub_r : aluR 0x05 0x06 false [0x90] = some (0xFF, fl 10011) ∧
    aluR 0x00 0x80 false [0x90] = some (0x80, fl 10101) := by decide

theorem test_sbb_r : aluR 0x04 0x02 true [0x9D] = some (0x01, fl 00100) ∧
    aluR 0x10 0x0F true [0x9D] = some (0x00, fl 01010) := by decide

theorem test_sub_m : aluM 0x20 0x21 false [0x96] = some (0xFF, fl 10011) := by decide

theorem test_sbb_m : aluM 0x20 0x1F true [0x9E] = some (0x00, fl 01010) := by decide

theorem test_sui : aluI 0x00 true [0xD6, 0x01] = some (0xFF, fl 10011) ∧
    aluI 0xC0 false [0xD6, 0x40] = some (0x80, fl 10100) := by decide

theorem test_sbi : aluI 0x00 true [0xDE, 0x01] = some (0xFE, fl 10001) ∧
    aluI 0x00 true [0xDE, 0xFF] = some (0x00, fl 01011) := by decide

theorem test_ana_r : aluR 0xFC 0x0F true [0xA1] = some (0x0C, fl 00110) ∧
    aluR 0xFF 0x00 true [0xA1] = some (0x00, fl 01110) := by decide

theorem test_ana_m : aluM 0xF0 0x3C true [0xA6] = some (0x30, fl 00110) := by decide

theorem test_ani : aluI 0x3A true [0xE6, 0x0F] = some (0x0A, fl 00110) := by decide

theorem test_xra_r : aluR 0xFF 0x0F true [0xA8] = some (0xF0, fl 10010) ∧
    aluR 0x5C 0x78 false [0xA8] = some (0x24, fl 00010) := by decide

theorem test_xra_m : aluM 0xF0 0x3C true [0xAE] = some (0xCC, fl 10010) := by decide

theorem test_xri : aluI 0x3B true [0xEE, 0x81] = some (0xBA, fl 10000) := by decide

theorem test_ora_r : aluR 0x33 0x0F true [0xB1] = some (0x3F, fl 00010) ∧
    aluR 0x00 0x00 true [0xB1] = some (0x00, fl 01010) := by decide

theorem test_ora_m : aluM 0xF0 0x3C false [0xB6] = some (0xFC, fl 10010) := by decide

theorem test_ori : aluI 0xB5 true [0xF6, 0x0F] = some (0xBF, fl 10000) := by decide

theorem test_cmp_r : aluR 0x02 0x05 false [0xBB] = some (0x02, fl 10001) ∧
    aluR 0x80 0x7F true [0xBB] = some (0x80, fl 00000) := by decide

theorem test_cmp_m : aluM 0x3B 0x3C false [0xBE] = some (0x3B, fl 10011) := by decide

theorem test_cpi : aluI 0x4A true [0xFE, 0x40] = some (0x4A, fl 00110) ∧
    aluI 0x4A true [0xFE, 0x4A] = some (0x4A, fl 01110) := by decide

theorem test_dad_b : ran { start with b := 0x33, c := 0x9F, h := 0xA1, l := 0x7B, flags := fl 11111 } [0x09]
    (fun t => (t.h, t.l, t.flags)) = some (0xD5, 0x1A, fl 11110) ∧
    ran { start with c := 0x01, h := 0xFF, l := 0xFF, flags := fl 11110 } [0x09] (fun t => (t.h, t.l, t.flags)) =
    some (0x00, 0x00, fl 11111) := by decide

theorem test_dad_d_h_sp : ran { start with d := 0x80, h := 0x80, flags := fl 11110 } [0x19] (fun t => (t.h, t.l, t.flags)) =
    some (0x00, 0x00, fl 11111) ∧
    ran { start with h := 0x80, l := 0x01, flags := fl 11110 } [0x29] (fun t => (t.h, t.l, t.flags)) =
    some (0x00, 0x02, fl 11111) ∧
    ran { start with h := 0xF0, sp := 0x1000, flags := fl 11110 } [0x39] (fun t => (t.h, t.l, t.sp, t.flags)) =
    some (0x00, 0x00, 0x1000, fl 11111) := by decide

/-! spec/95_test_vectors.md 2.7 -/

/-- AC after AND in a part with `ANA_AC_MODE = or_bit3`. -/
theorem test_ana_or_bit3 : ran { start with anaAc := .orBit3, a := 0xFC, c := 0x0F } [0xA1] (fun t => (t.a, t.flags.ac)) =
    some (0x0C, true) ∧ ran { start with anaAc := .orBit3, a := 0x80, c := 0x80 } [0xA1] (fun t => (t.a, t.flags.ac)) =
    some (0x80, false) := by decide

theorem test_rlc : rotated 0xF2 false [0x07] = some (0xE5, fl 11111) ∧
    rotated 0x80 false [0x07] = some (0x01, fl 11111) := by decide

theorem test_rrc : rotated 0xF2 true [0x0F] = some (0x79, fl 11110) ∧
    rotated 0x01 false [0x0F] = some (0x80, fl 11111) := by decide

theorem test_ral : rotated 0xB5 false [0x17] = some (0x6A, fl 11111) ∧
    rotated 0x80 false [0x17] = some (0x00, fl 11111) := by decide

theorem test_rar : rotated 0x6A true [0x1F] = some (0xB5, fl 11110) ∧
    rotated 0x00 true [0x1F] = some (0x80, fl 11110) := by decide

theorem test_cma : rotated 0x51 true [0x2F] = some (0xAE, fl 11111) ∧
    rotated 0x00 false [0x2F] = some (0xFF, fl 11110) := by decide

theorem test_stc : rotated 0x12 false [0x37] = some (0x12, fl 11111) ∧
    rotated 0x12 true [0x37] = some (0x12, fl 11111) := by decide

theorem test_cmc : rotated 0x12 false [0x3F] = some (0x12, fl 11111) ∧
    rotated 0x12 true [0x3F] = some (0x12, fl 11110) := by decide

theorem test_daa : adjusted 0x9B false false = some (0x01, fl 00101) ∧
    adjusted 0x1A false false = some (0x20, fl 00100) ∧
    adjusted 0x10 true false = some (0x16, fl 00000) ∧
    adjusted 0x9A false false = some (0x00, fl 01111) := by decide

theorem test_daa_carry : adjusted 0x02 false true = some (0x62, fl 00001) ∧
    adjusted 0xFF true true = some (0x65, fl 00111) ∧
    adjusted 0x90 false false = some (0x90, fl 10010) ∧
    adjusted 0x9F false false = some (0x05, fl 00111) := by decide

/-! spec/95_test_vectors.md 2.8 -/

theorem test_ei_di : ran start [0xFB] (fun t => (t.ie, t.inhibit)) = some (true, true) ∧
    ran { start with ie := true } [0xF3] (fun t => (t.ie, t.inhibit)) = some (false, true) := by decide

theorem test_nop_hlt : ran start [0x00] (fun t => (t.pc, t.halted)) = some (0x0101, false) ∧
    ran start [0x76] (fun t => (t.halted, t.pc, busTime t.bus)) = some (true, 0x0101, 5) := by decide

theorem test_rim : ran { start with
      pins := { start.pins with sid := true, rst55 := true }, r75 := true, ie := true, m75 := false
      inhibit := true } [0x20] (fun t => t.a) = some 0xDB ∧
    ran start [0x20] (fun t => t.a) = some 0x07 := by decide

theorem test_rim_after_trap : ran { start with trapRIM := true, trapIE := true, m55 := false } [0x20]
    (fun t => (t.a, t.trapRIM)) = some (0x0E, false) ∧ ran { start with trapIE := true, m55 := false } [0x20]
    (fun t => t.a) = some 0x06 := by decide

/-- Masks 7.5, 6.5, 5.5, R75 and SOD after SIM with a value of A, from masks 1 1 1 and R75 1. -/
def simmed (a : Byte) (sod : Bool) : Option (List Bool) :=
  ran { start with a := a, r75 := true, sod := sod } [0x30] fun t => [t.m75, t.m65, t.m55, t.r75, t.sod]

theorem test_sim_masks : simmed 0x0B false = some [false, true, true, true, false] ∧
    simmed 0x0D false = some [true, false, true, true, false] ∧ simmed 0x1F false = some [true, true, true, false, false] ∧
    simmed 0x07 false = some [true, true, true, true, false] := by decide

theorem test_sim_sod : simmed 0xC0 false = some [true, true, true, true, true] ∧
    simmed 0x40 true = some [true, true, true, true, false] ∧ simmed 0x80 true = some [true, true, true, true, true] := by decide

/-! ### Steps that run no instruction: the scenarios of spec/60_exceptions.md R300 -/

/-- What one step shows, nothing being put into memory. -/
def stepped {α : Type} (s : State) (f : State → α) : Option α :=
  match step s with
  | .next t => some (f t)
  | _ => none

/-- PC, SP, the two bytes at the top of the stack, IE after one step. -/
def entered (s : State) : Option (Word × Word × Byte × Byte × Bool) :=
  stepped s fun t => (t.pc, t.sp, t.byteAt (t.sp + 1), t.byteAt t.sp, t.ie)

/-- S1: after EI the next instruction runs with INTR high, and the step after it accepts. -/
theorem test_s1 : entered { start with pc := 0x0101, ie := true, inhibit := true, pins := { start.pins with intr := true } } =
      some (0x0102, 0x2000, 0x00, 0x00, true) ∧
    entered { start with
      pc := 0x0102, ie := true, pins := { start.pins with intr := true }, env := { start.env with intaIn := [0xFF] } } =
      some (0x0038, 0x1FFE, 0x01, 0x02, false) := by decide

/-- S2: RST 7.5 is accepted with its pin low, and its latch cleared. -/
theorem test_s2 : entered { start with pc := 0x0104, ie := true, m75 := false, r75 := true } =
    some (0x003C, 0x1FFE, 0x01, 0x04, false) ∧
    stepped { start with pc := 0x0104, ie := true, m75 := false, r75 := true } (fun t => t.r75) = some false := by decide

/-- S3: a rising TRAP between two steps is accepted at the second; held high it is not valid again. -/
def trapped : State :=
  { start with pc := 0x0101, ie := true, m55 := false, env := { start.env with inputs := [[.bus (.pin .trap true)]] } }

theorem test_s3 : entered trapped = some (0x0024, 0x1FFE, 0x01, 0x01, false) ∧
    stepped trapped (fun t => [t.trapIE, t.trapRIM, t.trapFF]) = some [true, true, false] ∧
    stepped trapped (fun t => t.selectInterrupt) = some none ∧
    stepped trapped (fun t => ((t.setPin .trap false).setPin .trap true).selectInterrupt) = some (some .trap) := by decide

/-- S4: a halted CPU idles, and RST 6.5 ends the halt. -/
theorem test_s4 : stepped { start with pc := 0x0101, ie := true, m65 := false, halted := true }
    (fun t => (t.pc, t.halted, t.bus)) = some (0x0101, true, []) ∧
    entered { start with pc := 0x0101, ie := true, m65 := false, halted := true, pins := { start.pins with rst65 := true } } =
    some (0x0034, 0x1FFE, 0x01, 0x01, false) := by decide

/-- S5: the order of acceptance. -/
def allRequests : State :=
  { start with
    ie := true, m55 := false, m65 := false, m75 := false, trapFF := true, r75 := true
    pins := { start.pins with trap := true, rst65 := true, rst55 := true, intr := true } }

theorem test_s5 : allRequests.selectInterrupt = some .trap ∧
    ({ allRequests with trapFF := false } : State).selectInterrupt = some .rst75 ∧
    ({ allRequests with trapFF := false, r75 := false } : State).selectInterrupt = some .rst65 ∧
    ({ allRequests with trapFF := false, r75 := false, m65 := true } : State).selectInterrupt = some .rst55 ∧
    ({ allRequests with trapFF := false, r75 := false, m65 := true, m55 := true } : State).selectInterrupt = some .intr := by
  decide

/-- S6: INTR answered by CALL 4000H: three INTA cycles, no memory read, 18 T states (R330). -/
def callSupplied : State :=
  { start with
    pc := 0x0150, ie := true, pins := { start.pins with intr := true }
    env := { start.env with intaIn := [0xCD, 0x00, 0x40] } }

theorem test_s6 : entered callSupplied = some (0x4000, 0x1FFE, 0x01, 0x50, false) ∧
    stepped callSupplied (fun t => (t.bus.map fun c => c.kind, busTime t.bus)) =
      some ([.intAck, .intAck, .intAck, .memWrite, .memWrite], 18) := by decide

/-- S7: after DI a pending INTR is not accepted at the inhibited boundary nor later. -/
theorem test_s7 : entered { start with pc := 0x0101, inhibit := true, pins := { start.pins with intr := true } } =
    some (0x0102, 0x2000, 0x00, 0x00, false) ∧
    entered { start with pc := 0x0102, pins := { start.pins with intr := true } } =
    some (0x0103, 0x2000, 0x00, 0x00, false) := by decide

/-- S8: INTR answered by RST 1 out of the halt state. -/
theorem test_s8 : entered { start with
      pc := 0x0102, ie := true, halted := true, pins := { start.pins with intr := true }
      env := { start.env with intaIn := [0xCF] } } = some (0x0008, 0x1FFE, 0x01, 0x02, false) := by decide

/-- S9: a masked RST 5.5 is not accepted, and RIM shows its pin. -/
theorem test_s9 : ran { start with ie := true, pins := { start.pins with rst55 := true } } [0x20]
    (fun t => (t.a, t.pc)) = some (0x1F, 0x0101) := by decide

/-- R320, R321: RESET IN applied holds the machine at PC 0 and keeps memory; released, it fetches from 0000H (R322). -/
def resetApplied : State :=
  { putAt start 0x2050 [0x99] with
    ie := true, halted := true, env := { start.env with inputs := [[.resetIn true]], choices := List.replicate 10 0x5A } }

theorem test_reset_in : stepped resetApplied (fun t => (t.pc, t.byteAt 0x2050, t.a, t.sp)) =
    some (0x0000, 0x99, 0x5A, 0x5A5A) ∧
    stepped resetApplied (fun t => [t.ie, t.halted, t.m75, t.m65, t.m55, t.inhibit, t.resetOut]) =
      some [false, false, true, true, true, false, true] ∧
    ran { State.reset with
      pins := { start.pins with resetIn := true }, env := { start.env with inputs := [[.resetIn false]] } } [0x3E, 0x42]
      (fun t => (t.a, t.pc)) = some (0x42, 0x0002) := by decide

/-- R322: a TRAP that rises when RESET IN is released waits for the instruction at 0000H, and is accepted after it; in reset
another master loads memory (R324). -/
def trapAfterReset : State :=
  putAt { State.reset with
    sp := 0x2000
    pins := { start.pins with resetIn := true }
    env := { start.env with inputs := [[.bus (.dma 0x0001 0x42), .resetIn false, .bus (.pin .trap true)]] } } 0 [0x3E]

theorem test_trap_after_reset : stepped trapAfterReset (fun t => (t.pc, t.a, t.selectInterrupt)) = some (0x0002, 0x42, some .trap) ∧
    (match step trapAfterReset with
      | .next t => entered t
      | _ => none) = some (0x0024, 0x1FFE, 0x00, 0x02, false) := by decide

/-- R72, R291: in a hold nothing is fetched and HLDA is 1; the other master's bytes arrive (R71). -/
theorem test_hold : stepped { start with
      env := { start.env with inputs := [[.bus (.pin .hold true), .bus (.dma 0x2050 0x77)]] } }
    (fun t => (t.pc, t.hlda, t.byteAt 0x2050, t.bus)) = some (0x0100, true, 0x77, []) := by decide

/-- R73: wait states lengthen a machine cycle and change nothing else. -/
theorem test_wait_states : ran { start with env := { start.env with xfers := [⟨[], 2⟩, ⟨[], 1⟩] } } [0x3E, 0x42]
    (fun t => (t.a, busTime t.bus)) = some (0x42, 10) := by decide

/-- R44, R61, R65, R73: OUT 21H of A5H with one wait state: the port on both halves of the address in T1, then the byte on AD0 to
AD7 while WR is low, in an I/O write cycle (IO/M 1, S1 0, S0 1). -/
theorem test_waveform : (⟨.ioWrite, some 0x2121, some 0xA5, 3, 1⟩ : BusCycle).waveform =
    [⟨.high, .low, .high, .address 0x21, .address 0x21, .high, .high, .high, .high⟩,
     ⟨.high, .low, .high, .address 0x21, .data 0xA5, .high, .low, .high, .low⟩,
     ⟨.high, .low, .high, .address 0x21, .data 0xA5, .high, .low, .high, .low⟩,
     ⟨.high, .low, .high, .address 0x21, .data 0xA5, .high, .low, .high, .low⟩] := by decide

/-- R65: IO/M in T4 is 1 in an INA cycle and 0 in the bus idle cycle of an acknowledge; ALE stays 0 in DAD's idle cycles. R45: the
status of that acknowledge is 1 1 1 in T4 as in T1. -/
theorem test_status_after_t3 : (TState.lines ⟨.intAck, some 0x0150, some 0xFF, 6, 0⟩ .t4).ioM = .high ∧
    (TState.lines ⟨.idleAck, none, none, 6, 0⟩ .t4).ioM = .low ∧ (TState.lines ⟨.idleAck, none, none, 6, 0⟩ .t1).ale = .high ∧
    (TState.lines ⟨.idleDad, none, none, 3, 0⟩ .t1).ale = .low ∧
    TState.status ⟨.idleAck, none, none, 6, 0⟩ .t4 = ⟨.high, .high, .high⟩ ∧
    TState.status ⟨.idleAck, none, none, 6, 0⟩ .t1 = ⟨.high, .high, .high⟩ := by decide

/-- R68: a store to ROM or to a device changes nothing there; a device's read takes the environment's answer. -/
theorem test_memory_kinds : ran { start with a := 0x12, map := [⟨0x8000, 0x100, .rom⟩] } [0x32, 0x10, 0x80]
    (fun t => t.byteAt 0x8010) = some 0x00 ∧
    ran { start with map := [⟨0x8000, 0x100, .device⟩], env := { start.env with memIn := [0x66] } } [0x3A, 0x10, 0x80]
    (fun t => t.a) = some 0x66 := by decide

/-- R330: T states of a conditional jump, call and return, taken and not. -/
theorem test_t_states : ran start [0xDA, 0x00, 0x3E] (fun t => busTime t.bus) = some 7 ∧
    ran { start with flags := fl 1 } [0xDA, 0x00, 0x3E] (fun t => busTime t.bus) = some 10 ∧
    ran start [0xDC, 0x00, 0x3E] (fun t => busTime t.bus) = some 9 ∧
    ran { start with flags := fl 1 } [0xDC, 0x00, 0x3E] (fun t => busTime t.bus) = some 18 ∧
    ran start [0xD8] (fun t => busTime t.bus) = some 6 ∧
    ran { start with flags := fl 1 } [0xD8] (fun t => busTime t.bus) = some 12 := by decide

/-! ### Witnesses: for every obligation with hypotheses, values that meet them all together -/

/-- With an empty map every address is RAM. -/
theorem stored_everywhere (s : State) (h : s.map = []) (x : Word) : s.stored x := by
  simp [State.stored, State.kindOf, h, kindAt]

theorem witness_DecodeEncodeRoundTrip : (Instr.rst 7).WellFormed ∧ (Instr.lxiSP 0xFFFF).WellFormed := by decide

theorem witness_DecodedBytesReencode : decode [0xFF, 0x00] = .ok (.rst 7) [0x00] := by decide

/-- An unassigned byte, an assigned one, and a boundary that fetches an unassigned one. -/
theorem witness_UnassignedBytesRefused : (0xFD : Byte) ∈ unassignedOpcodes ∧ (0xFF : Byte) ∉ unassignedOpcodes ∧
    ∃ s t : State, s.takeInputs.boundary = .run t ∧ t.Quiet ∧ t.stored t.pc ∧ t.byteAt t.pc ∈ unassignedOpcodes :=
  ⟨by decide, by decide, putAt start 0x0100 [0xDD], _, rfl, rfl, stored_everywhere _ rfl _, by decide⟩

/-- One, two and three bytes, and a third byte that is skipped. -/
theorem witness_StepRunsDecodedInstruction :
    ∀ p ∈ ([([0x41], .movRR .b .c), ([0x3E, 0x42], .mviR .a 0x42), ([0xC3, 0x00, 0x3E], .jmp 0x3E00),
      ([0xDA, 0x00, 0x3E], .jc 0x3E00)] : List (List Byte × Instr)),
      ∃ s t : State, s.takeInputs.boundary = .run t ∧ t.Quiet ∧ t.AtInstr p.2 := by
  intro p hp
  simp only [List.mem_cons, List.not_mem_nil, or_false] at hp
  rcases hp with rfl | rfl | rfl | rfl
  · exact ⟨putAt start 0x0100 [0x41], _, rfl, rfl, fun _ _ => stored_everywhere _ rfl _, _, rfl⟩
  · exact ⟨putAt start 0x0100 [0x3E, 0x42], _, rfl, rfl, fun _ _ => stored_everywhere _ rfl _, _, rfl⟩
  · exact ⟨putAt start 0x0100 [0xC3, 0x00, 0x3E], _, rfl, rfl, fun _ _ => stored_everywhere _ rfl _, _, rfl⟩
  · exact ⟨putAt start 0x0100 [0xDA, 0x00, 0x3E], _, rfl, rfl, fun _ _ => stored_everywhere _ rfl _, _, rfl⟩

/-- In reset; in hold; leaving reset, with a TRAP; inhibited; with a request; halted with none; running with none. -/
theorem witness_BoundaryOrder :
    let isOpen : State → Prop := fun u => u.pins.resetIn = false ∧ u.pins.hold = false ∧ u.starting = false ∧ u.inhibit = false
    (∃ s : State, s.takeInputs.pins.resetIn = true) ∧
    (∃ s : State, s.takeInputs.pins.resetIn = false ∧ s.takeInputs.pins.hold = true) ∧
    (∀ b ∈ [(true, false), (false, true)], ∃ s : State, s.takeInputs.pins.resetIn = false ∧ s.takeInputs.pins.hold = false ∧
      (s.takeInputs.starting, s.takeInputs.inhibit) = b ∧ s.takeInputs.halted = false ∧
      s.takeInputs.selectInterrupt = some .trap) ∧
    (∃ (s : State) (q : Request), isOpen s.takeInputs ∧ s.takeInputs.selectInterrupt = some q) ∧
    (∃ s : State, isOpen s.takeInputs ∧ s.takeInputs.selectInterrupt = none ∧ s.takeInputs.halted = true) ∧
    (∃ s : State, isOpen s.takeInputs ∧ s.takeInputs.selectInterrupt = none ∧ s.takeInputs.halted = false) := by
  refine ⟨⟨{ start with pins := { start.pins with resetIn := true } }, rfl⟩,
    ⟨{ start with pins := { start.pins with hold := true } }, rfl, rfl⟩, fun b hb => ?_,
    ⟨{ start with ie := true, m75 := false, r75 := true }, .rst75, ⟨rfl, rfl, rfl, rfl⟩, rfl⟩,
    ⟨{ start with halted := true }, ⟨rfl, rfl, rfl, rfl⟩, rfl, rfl⟩, ⟨start, ⟨rfl, rfl, rfl, rfl⟩, rfl, rfl⟩⟩
  simp only [List.mem_cons, List.not_mem_nil, or_false] at hb
  rcases hb with rfl | rfl
  · exact ⟨{ allRequests with starting := true }, rfl, rfl, rfl, rfl, rfl⟩
  · exact ⟨{ allRequests with inhibit := true }, rfl, rfl, rfl, rfl, rfl⟩

/-- EI and DI with INTR high, an event to come, and a boundary that takes it. -/
theorem witness_InstructionAfterEiRuns : ∀ i ∈ [Instr.ei, .di], ∃ s t : State, exec i s = .next t ∧ t.halted = false ∧
    (∀ es rest, t.env.inputs = es :: rest → ∀ b, BoundaryEvent.resetIn b ∉ es) ∧
    t.takeInputs.pins.resetIn = false ∧ t.takeInputs.pins.hold = false ∧ t.takeInputs.pins.intr = true := by
  intro i hi
  have h : ∀ es rest, [[BoundaryEvent.bus (.pin .intr true)]] = es :: rest → ∀ b, BoundaryEvent.resetIn b ∉ es := by
    rintro es rest he b hb
    cases he
    simp at hb
  simp only [List.mem_cons, List.not_mem_nil, or_false] at hi
  rcases hi with rfl | rfl <;>
    exact ⟨{ start with env := { start.env with inputs := [[.bus (.pin .intr true)]] } }, _, rfl, rfl, h, rfl, rfl, rfl⟩

/-- At reset, inside a hold, and while RESET IN is applied. -/
theorem witness_InvariantKept :
    (State.reset.Inv ∧ ∃ t, step State.reset = .next t) ∧
    (State.Inv { start with hlda := true, pins := { start.pins with hold := true } } ∧
      ∃ t, step { start with hlda := true, pins := { start.pins with hold := true } } = .next t) ∧
    (State.Inv { State.reset with pins := { start.pins with resetIn := true } } ∧
      ∃ t, step { State.reset with pins := { start.pins with resetIn := true } } = .next t) :=
  ⟨⟨by unfold State.Inv; decide, _, rfl⟩, ⟨by unfold State.Inv; decide, _, rfl⟩, ⟨by unfold State.Inv; decide, _, rfl⟩⟩

/-- Each of the five requests is selected in some state, and none in another. -/
theorem witness_InterruptPriority : (∀ q ∈ [Request.trap, .rst75, .rst65, .rst55, .intr],
    ∃ s : State, s.selectInterrupt = some q) ∧ start.selectInterrupt = none := by
  refine ⟨fun q hq => ?_, rfl⟩
  simp only [List.mem_cons, List.not_mem_nil, or_false] at hq
  rcases hq with rfl | rfl | rfl | rfl | rfl
  · exact ⟨allRequests, rfl⟩
  · exact ⟨{ allRequests with trapFF := false }, rfl⟩
  · exact ⟨{ allRequests with trapFF := false, r75 := false }, rfl⟩
  · exact ⟨{ allRequests with trapFF := false, r75 := false, m65 := true }, rfl⟩
  · exact ⟨{ allRequests with trapFF := false, r75 := false, m65 := true, m55 := true }, rfl⟩

/-- A boundary at which each of the four restarts is accepted. -/
theorem witness_RestartEntry :
    ∀ p ∈ ([(.trap, 0x0024), (.rst75, 0x003C), (.rst65, 0x0034), (.rst55, 0x002C)] : List (Request × Word)),
      ∃ s u : State, u = s.takeInputs ∧ u.pins.resetIn = false ∧ u.pins.hold = false ∧ u.starting = false ∧ u.inhibit = false ∧
        u.selectInterrupt = some p.1 ∧ u.Quiet := by
  intro p hp
  simp only [List.mem_cons, List.not_mem_nil, or_false] at hp
  rcases hp with rfl | rfl | rfl | rfl
  · exact ⟨allRequests, _, rfl, rfl, rfl, rfl, rfl, rfl, rfl⟩
  · exact ⟨{ allRequests with trapFF := false }, _, rfl, rfl, rfl, rfl, rfl, rfl, rfl⟩
  · exact ⟨{ allRequests with trapFF := false, r75 := false }, _, rfl, rfl, rfl, rfl, rfl, rfl, rfl⟩
  · exact ⟨{ allRequests with trapFF := false, r75 := false, m65 := true }, _, rfl, rfl, rfl, rfl, rfl, rfl, rfl⟩

/-- A running CPU with INTR high, the device's answers to come. -/
def interrupted (answers : List Byte) : State :=
  { start with ie := true, pins := { start.pins with intr := true }, env := { start.env with intaIn := answers } }

/-- RST 0 and RST 7 supplied, and CALL FFFFH supplied. -/
theorem witness_IntrEntry :
    (∀ p ∈ ([(0, 0xC7), (7, 0xFF)] : List (Nat × Byte)), ∃ s u : State, u = s.takeInputs ∧ u.pins.resetIn = false ∧
      u.pins.hold = false ∧ u.starting = false ∧ u.inhibit = false ∧ u.selectInterrupt = some .intr ∧ u.Quiet ∧ p.1 < 8 ∧
      u.env.intaAnswer.1 = BitVec.ofNat 8 (0xC7 + 8 * p.1)) ∧
    ∃ (s u : State) (e1 e2 e3 : Env), u = s.takeInputs ∧ u.pins.resetIn = false ∧ u.pins.hold = false ∧
      u.starting = false ∧ u.inhibit = false ∧ u.selectInterrupt = some .intr ∧ u.Quiet ∧ u.env.intaAnswer = (0xCD, e1) ∧
      e1.intaAnswer = (0xFF, e2) ∧ e2.intaAnswer = (0xFF, e3) := by
  refine ⟨fun p hp => ?_, interrupted [0xCD, 0xFF, 0xFF], _, _, _, _, rfl, rfl, rfl, rfl, rfl, rfl, rfl, rfl, rfl, rfl⟩
  simp only [List.mem_cons, List.not_mem_nil, or_false] at hp
  rcases hp with rfl | rfl
  · exact ⟨interrupted [0xC7], _, rfl, rfl, rfl, rfl, rfl, rfl, rfl, by decide, rfl⟩
  · exact ⟨interrupted [0xFF], _, rfl, rfl, rfl, rfl, rfl, rfl, rfl, by decide, rfl⟩

/-- NOP supplied. -/
theorem witness_OtherIntaByteRefused : ∃ s u : State, u = s.takeInputs ∧ u.pins.resetIn = false ∧ u.pins.hold = false ∧
    u.starting = false ∧ u.inhibit = false ∧ u.selectInterrupt = some .intr ∧ u.Quiet ∧
    (∀ n, n < 8 → u.env.intaAnswer.1 ≠ BitVec.ofNat 8 (0xC7 + 8 * n)) ∧ u.env.intaAnswer.1 ≠ 0xCD :=
  ⟨interrupted [0x00], _, rfl, rfl, rfl, rfl, rfl, rfl, rfl, by
    intro n hn
    show (0x00 : Byte) ≠ _
    revert n
    decide, by
    show (0x00 : Byte) ≠ 0xCD
    decide⟩

theorem witness_InterruptEnableRules : start.ie = false ∧
    (∃ t, exec .nop { start with ie := true } = .next t ∧ t.ie = true) ∧ (∃ t, exec .ei start = .next t) ∧
    (∃ t, exec .di start = .next t) ∧ ∃ t, allRequests.accept .trap = .next t :=
  ⟨rfl, ⟨_, rfl, rfl⟩, ⟨_, rfl⟩, ⟨_, rfl⟩, _, rfl⟩

/-- SIM with A bit 3 set and not set; each mask set. -/
theorem witness_MaskRules : (∃ t, exec .nop start = .next t) ∧ (∃ t, allRequests.accept .trap = .next t) ∧
    BoundaryEvent.resetIn false ≠ .resetIn true ∧
    (∃ t, exec .sim { start with a := 0x08 } = .next t ∧ (0x08 : Byte).getLsbD 3 = true) ∧
    (∃ t, exec .sim { start with a := 0x07 } = .next t ∧ (0x07 : Byte).getLsbD 3 = false) ∧
    (start.m75 = true ∧ start.m65 = true ∧ start.m55 = true) ∧ ∃ t, exec .rim start = .next t :=
  ⟨⟨_, rfl⟩, ⟨_, rfl⟩, by decide, ⟨_, rfl, by decide⟩, ⟨_, rfl, by decide⟩, ⟨rfl, rfl, rfl⟩, _, rfl⟩

/-- A halted CPU with no valid request, IE 0; and one with a valid request that is accepted. -/
theorem witness_HaltEndsOnlyByInterrupt :
    (∃ s u : State, u = s.takeInputs ∧ u.halted = true ∧ u.starting = false ∧ u.inhibit = false ∧
      u.pins.resetIn = false ∧ u.pins.hold = false ∧ u.selectInterrupt = none ∧ u.ie = false ∧ u.selectInterrupt ≠ some .trap) ∧
    (∃ (s u t : State) (q : Request), u = s.takeInputs ∧ u.halted = true ∧ u.starting = false ∧ u.inhibit = false ∧
      u.pins.resetIn = false ∧ u.pins.hold = false ∧ u.selectInterrupt = some q ∧ step s = .next t) :=
  ⟨⟨{ start with halted := true }, _, rfl, rfl, rfl, rfl, rfl, rfl, rfl, rfl, by decide⟩,
    { allRequests with halted := true }, _, _, .trap, rfl, rfl, rfl, rfl, rfl, rfl, rfl, rfl⟩

theorem witness_Rst75LatchRules : (start.pins.rst75 = false ∧ start.pins.resetIn = false) ∧ allRequests.r75 = true ∧
    (Pin.trap ≠ .rst75 ∧ (start.setPin .rst75 true).pins.rst75 = true) ∧
    (∃ t, exec .nop allRequests = .next t ∧ t.r75 = true) ∧ (∃ t, allRequests.accept .trap = .next t ∧ t.r75 = true) ∧
    (∃ t, exec .sim { allRequests with a := 0x0F } = .next t ∧ (0x0F : Byte).getLsbD 4 = false) ∧
    (∃ t, exec .sim { allRequests with a := 0x10 } = .next t ∧ (0x10 : Byte).getLsbD 4 = true) ∧
    (∃ t, allRequests.accept .trap = .next t) ∧ allRequests.Quiet ∧ (∃ t, allRequests.accept .rst75 = .next t) ∧
    ∃ t, exec .rim allRequests = .next t :=
  ⟨⟨rfl, rfl⟩, rfl, ⟨by decide, rfl⟩, ⟨_, rfl, rfl⟩, ⟨_, rfl, rfl⟩, ⟨_, rfl, by decide⟩, ⟨_, rfl, by decide⟩, ⟨_, rfl⟩, rfl,
    ⟨_, rfl⟩, _, rfl⟩

theorem witness_TrapLatchRules : (start.pins.trap = false ∧ start.pins.resetIn = false) ∧ allRequests.trapFF = true ∧
    (∃ t, exec .nop allRequests = .next t) ∧ (∃ t, allRequests.accept .rst75 = .next t) ∧ allRequests.Quiet ∧
    (∃ t, allRequests.accept .trap = .next t) ∧
    ∃ s : State, s.trapFF = false ∧ s.pins.trap = true :=
  ⟨⟨rfl, rfl⟩, rfl, ⟨_, rfl⟩, ⟨_, rfl⟩, rfl, ⟨_, rfl⟩, { allRequests with trapFF := false }, rfl, rfl⟩

theorem witness_FirstRimAfterTrap : (∃ s : State, s.trapRIM = true) ∧ (∃ t, exec .nop start = .next t) ∧
    (∃ t, allRequests.accept .rst55 = .next t) ∧ ∃ t, allRequests.accept .trap = .next t :=
  ⟨⟨{ start with trapRIM := true }, rfl⟩, ⟨_, rfl⟩, ⟨_, rfl⟩, _, rfl⟩

/-- Acceptances after which other requests are left, for the last clause of InterruptPriority. -/
theorem witness_InterruptPriority_left : allRequests.Quiet ∧ (∃ t, allRequests.accept .trap = .next t) ∧
    ∃ t, allRequests.accept .rst65 = .next t := ⟨rfl, ⟨_, rfl⟩, _, rfl⟩

/-- RESET IN applied and nothing to come; another master's byte then; and its release, after which TRAP rises at once. -/
theorem witness_HeldInResetThenFetchesAtZero :
    let held (inputs : List (List BoundaryEvent)) : State :=
      { State.reset with pins := { start.pins with resetIn := true }, env := { start.env with inputs := inputs } }
    ((held []).Inv ∧ (held []).pins.resetIn = true ∧ (held []).env.inputs = []) ∧
    ((held []).pins.resetIn = true ∧ (held []).kindOf 0xFFFF = .ram) ∧
    ∃ (s u : State) (es : List Event) (rest : List (List BoundaryEvent)), s.Inv ∧ s.pins.resetIn = true ∧
      s.env.inputs = (.resetIn false :: es.map .bus) :: rest ∧ u = s.takeInputs ∧ u.pins.hold = false ∧
      u.selectInterrupt = some .trap :=
  ⟨⟨by unfold State.Inv; decide, rfl, rfl⟩, ⟨rfl, by decide⟩,
    { State.reset with
      pins := { start.pins with resetIn := true }
      env := { start.env with inputs := [[.resetIn false, .bus (.pin .trap true)]] } },
    _, [.pin .trap true], [], by unfold State.Inv; decide, rfl, rfl, rfl, rfl, rfl⟩

/-- T states of cycles that have T4 to T6, and of one that has not. -/
theorem witness_ControlLinesOfCycles_status :
    (∀ k ∈ [CycleKind.opFetch, .intAck, .idleAck], ∃ (c : BusCycle) (t : TState), c.kind = k ∧
      c.kind ∈ [CycleKind.opFetch, .intAck, .idleAck] ∧ t ∈ c.tStates ∧ (c.kind ≠ .idleAck ∨ t ∉ [TState.t4, .t5, .t6])) ∧
    ∃ (c : BusCycle) (t : TState), c.base ≤ 3 ∧ c.kind ≠ .idleAck ∧ t ∈ c.tStates := by
  refine ⟨fun k hk => ⟨⟨k, none, none, 6, 0⟩, .t3, rfl, hk, ?_, .inr (by decide)⟩,
    ⟨.ioRead, some 0x2020, some 0x5A, 3, 1⟩, .tWait, by decide, by decide, by decide⟩
  simp only [List.mem_cons, List.not_mem_nil, or_false] at hk
  rcases hk with rfl | rfl | rfl <;> decide

/-- The three cycles without a byte, and a cycle of each kind that moves one. -/
theorem witness_ControlLinesOfCycles :
    (∀ k ∈ [CycleKind.idleDad, .idleAck, .idleHalt], k.transfers = false) ∧
    (∀ k ∈ [CycleKind.opFetch, .memRead, .memWrite, .ioRead, .ioWrite, .intAck], k.transfers = true) ∧
    TState.t6 ∈ [TState.t4, .t5, .t6] ∧ 3 ≤ 3 ∧ 3 ≤ 6 := by decide

/-- A return that is taken and one that is not. -/
theorem witness_TStatesPerInstruction : ∃ s t v : State, s.takeInputs.boundary = .run t ∧ t.Quiet ∧ t.AtInstr .rc ∧
    step s = .next v ∧ takenBy .rc t.flags = false :=
  ⟨putAt start 0x0100 [0xD8], _, _, rfl, rfl, ⟨fun _ _ => stored_everywhere _ rfl _, _, rfl⟩, rfl, rfl⟩

theorem witness_TStatesPerInstruction_taken : ∃ s t v : State, s.takeInputs.boundary = .run t ∧ t.Quiet ∧
    t.AtInstr (.cc 0x1234) ∧ step s = .next v ∧ takenBy (.cc 0x1234) t.flags = true :=
  ⟨putAt { start with flags := fl 1 } 0x0100 [0xDC, 0x34, 0x12], _, _, rfl, rfl, ⟨fun _ _ => stored_everywhere _ rfl _, _, rfl⟩, rfl, rfl⟩

/-- JC with CY 0 and CNZ with Z 1: the condition is false, and a device stands under the third byte of JC. -/
theorem witness_FalseConditionSkipsThirdByte :
    (∃ s t : State, s.takeInputs.boundary = .run t ∧ t.Quiet ∧ t.stored t.pc ∧ t.stored (t.pc + 1) ∧
      ¬ t.stored (t.pc + 2) ∧ 0xDA = t.byteAt t.pc ∧ t.flags.cy = false) ∧
    ∃ s t : State, s.takeInputs.boundary = .run t ∧ t.Quiet ∧ t.stored t.pc ∧ t.stored (t.pc + 1) ∧
      0xC4 = t.byteAt t.pc ∧ (!t.flags.z) = false :=
  ⟨⟨putAt { start with map := [⟨0x0102, 1, .device⟩] } 0x0100 [0xDA, 0x00], _, rfl, rfl, by unfold State.stored; decide,
      by unfold State.stored; decide, by unfold State.stored; decide, by decide, rfl⟩,
    putAt { start with flags := fl 1000 } 0x0100 [0xC4, 0x34, 0x12], _, rfl, rfl, stored_everywhere _ rfl _,
      stored_everywhere _ rfl _, by decide, by decide⟩

/-- One to three wait states, after events or none; and the same transfer without. -/
theorem witness_WaitStatesOnlyStretch : (∀ n ∈ [1, 3], ∃ (s t : State) (es : List Event) (rest : List Xfer),
      s.env.xfers = ⟨es, 0⟩ :: rest ∧ t = { s with env := { s.env with xfers := ⟨es, n⟩ :: rest } } ∧ es ≠ []) ∧
    CycleKind.memWrite.transfers = true :=
  ⟨fun _ _ => ⟨{ start with env := { start.env with xfers := [⟨[.pin .sid true], 0⟩, ⟨[], 2⟩] } }, _, _, _, rfl, rfl, by simp⟩,
    rfl⟩

theorem witness_DaaAdjustsDecimalSums : IsBcd 0x99 ∧ IsBcd 0x00 := by unfold IsBcd; decide

/-- RAM, ROM and a device with an answer, each in a quiet state. -/
theorem witness_MemoryReadsAndWrites : (start.Quiet ∧ start.kindOf 0xFFFF = .ram) ∧
    (∃ s : State, s.Quiet ∧ s.kindOf 0x8000 = .rom) ∧
    ∃ (s : State) (w : Byte) (rest : List Byte), s.Quiet ∧ s.kindOf 0x80FF = .device ∧ s.env.memIn = w :: rest :=
  ⟨⟨rfl, by decide⟩, ⟨{ start with map := [⟨0x8000, 0x100, .rom⟩] }, rfl, by decide⟩,
    { start with map := [⟨0x8000, 0x100, .device⟩], env := { start.env with memIn := [0x66] } }, 0x66, [], rfl, by decide, rfl⟩

theorem witness_IncrementLosesOtherMastersWrite : ∃ (s : State) (w : Byte) (rest : List Xfer), s.kindOf s.hl = .ram ∧
    s.pins.resetIn = false ∧ s.env.xfers = ⟨[], 0⟩ :: ⟨[.pin .hold true, .dma s.hl w, .pin .hold false], 0⟩ :: rest :=
  ⟨{ start with env := { start.env with
      xfers := [⟨[], 0⟩, ⟨[.pin .hold true, .dma 0x0000 0x55, .pin .hold false], 0⟩] } }, 0x55, [], by decide, rfl, rfl⟩

theorem witness_StoreSeenByNextFetch : start.Quiet ∧ start.kindOf 0x0103 = .ram := ⟨rfl, by decide⟩

/-- The one premise of MoveToAndFromMemory, AccumulatorLoadsAndStores, HlLoadsAndStores, Pushes, InputAndOutput. -/
theorem witness_Quiet : State.reset.Quiet ∧ start.Quiet := ⟨rfl, rfl⟩

/-- An answer to the I/O read of InputAndOutput. -/
theorem witness_InputAndOutput : ∃ (s : State) (w : Byte) (rest : List Byte), s.Quiet ∧ s.env.ioIn = w :: rest :=
  ⟨{ start with env := { start.env with ioIn := [0x5A] } }, 0x5A, [], rfl, rfl⟩

/-- The operand lists of AccumulatorLoadsAndStores and Pushes. -/
theorem witness_OperandLists (s : State) :
    (Instr.staxD, pair s.d s.e, (0x12 : Byte)) ∈ [(Instr.staxB, pair s.b s.c, (0x02 : Byte)), (Instr.staxD, pair s.d s.e, 0x12)] ∧
    (Instr.ldaxB, pair s.b s.c, (0x0A : Byte)) ∈ [(Instr.ldaxB, pair s.b s.c, (0x0A : Byte)), (Instr.ldaxD, pair s.d s.e, 0x1A)] ∧
    (Instr.pushH, (0xE5 : Byte), s.h, s.l) ∈
      [(Instr.pushB, 0xC5, s.b, s.c), (Instr.pushD, 0xD5, s.d, s.e), (Instr.pushH, 0xE5, s.h, s.l)] := by
  simp

/-- A stack whose two bytes wrap, for Pops, ExchangeTopOfStack and Returns. -/
theorem witness_Pops : ∃ (s : State) (lo hi : Byte), s.Quiet ∧ (lo, hi) = s.reads2 s.sp (s.sp + 1) ∧ s.sp = 0xFFFF :=
  ⟨putAt { start with sp := 0xFFFF } 0xFFFF [0x34, 0x12], 0x34, 0x12, rfl, by decide, rfl⟩

theorem witness_ExchangeTopOfStack : ∃ (s : State) (lo hi : Byte), s.Quiet ∧ (lo, hi) = s.reads2 s.sp (s.sp + 1) :=
  ⟨putAt start 0x2000 [0xF0, 0x0D], 0xF0, 0x0D, rfl, by decide⟩

theorem witness_PairIncrements :
    (Instr.dcxB, (0x0B : Byte), (-1 : Word)) ∈ [(Instr.inxB, (0x03 : Byte), (1 : Word)), (.dcxB, 0x0B, -1)] ∧
    (Instr.inxD, (0x13 : Byte), (1 : Word)) ∈ [(Instr.inxD, (0x13 : Byte), (1 : Word)), (.dcxD, 0x1B, -1)] ∧
    (Instr.dcxH, (0x2B : Byte), (-1 : Word)) ∈ [(Instr.inxH, (0x23 : Byte), (1 : Word)), (.dcxH, 0x2B, -1)] := by decide

/-- A jump whose condition holds and one whose condition does not, in a state with CY 1. -/
theorem witness_Jumps : ∃ s : State,
    (Instr.jc 0x3E00, (0xDA : Byte), true) ∈ [(Instr.jc 0x3E00, (0xDA : Byte), s.flags.cy), (.jnc 0x3E00, 0xD2, !s.flags.cy)] ∧
    (Instr.jnc 0x3E00, (0xD2 : Byte), false) ∈ [(Instr.jc 0x3E00, (0xDA : Byte), s.flags.cy), (.jnc 0x3E00, 0xD2, !s.flags.cy)] :=
  ⟨{ start with flags := fl 1 }, by decide, by decide⟩

/-- A call whose condition holds and one whose condition does not. -/
theorem witness_Calls : ∃ s : State, s.Quiet ∧
    (Instr.call 0x1234, (0xCD : Byte), true) ∈
      [(Instr.call 0x1234, (0xCD : Byte), true), (.cpe 0x1234, 0xEC, s.flags.p), (.cpo 0x1234, 0xE4, !s.flags.p)] ∧
    (Instr.cpo 0x1234, (0xE4 : Byte), true) ∈
      [(Instr.call 0x1234, (0xCD : Byte), true), (.cpe 0x1234, 0xEC, s.flags.p), (.cpo 0x1234, 0xE4, !s.flags.p)] ∧
    (Instr.cpe 0x1234, (0xEC : Byte), false) ∈
      [(Instr.call 0x1234, (0xCD : Byte), true), (.cpe 0x1234, 0xEC, s.flags.p), (.cpo 0x1234, 0xE4, !s.flags.p)] :=
  ⟨start, rfl, by decide, by decide, by decide⟩

/-- A return whose condition holds and one whose condition does not. -/
theorem witness_Returns : ∃ (s : State) (lo hi : Byte), s.Quiet ∧ (lo, hi) = s.reads2 s.sp (s.sp + 1) ∧
    (Instr.rp, (0xF0 : Byte), 6, true) ∈
      [(Instr.ret, (0xC9 : Byte), 4, true), (.rp, 0xF0, 6, !s.flags.s), (.rm, 0xF8, 6, s.flags.s)] ∧
    (Instr.rm, (0xF8 : Byte), 6, false) ∈
      [(Instr.ret, (0xC9 : Byte), 4, true), (.rp, 0xF0, 6, !s.flags.s), (.rm, 0xF8, 6, s.flags.s)] :=
  ⟨putAt start 0x2000 [0x03, 0x01], 0x03, 0x01, rfl, by decide, by decide, by decide⟩

theorem witness_Restarts : start.Quiet ∧ 0 < 8 ∧ 7 < 8 := ⟨rfl, by decide⟩

/-- Operand M for IncrementsAndDecrements, Additions, Subtractions, LogicalOperations and Compares, with HL at FFFFH. -/
theorem witness_OperandM : ∃ (s : State) (x : Word) (v : Byte), s.Quiet ∧ x = pair s.h s.l ∧ v = s.reads x ∧ x = 0xFFFF :=
  ⟨putAt { start with h := 0xFF, l := 0xFF } 0xFFFF [0x99], 0xFFFF, 0x99, rfl, by decide, by decide, rfl⟩

theorem witness_DoubleAdds : ∃ s : State, (Instr.dadSP, (0x39 : Byte), s.sp) ∈
    [(Instr.dadB, (0x09 : Byte), pair s.b s.c), (.dadD, 0x19, pair s.d s.e), (.dadH, 0x29, pair s.h s.l), (.dadSP, 0x39, s.sp)] :=
  ⟨start, by decide⟩

/-- DAA with neither correction, with one, and with both. -/
theorem witness_AccumulatorSpecials : ∀ p ∈ ([(0x99, false, false, 0), (0x1A, true, false, 6), (0xA0, false, true, 96),
      (0x9A, true, true, 102)] : List (Byte × Bool × Bool × Nat)),
    (p.2.1 = true ↔ 9 < p.1.toNat % 16 ∨ false = true) ∧
    (p.2.2.1 = true ↔ 9 < p.1.toNat / 16 ∨ false = true ∨ (9 ≤ p.1.toNat / 16 ∧ 9 < p.1.toNat % 16)) ∧
    p.2.2.2 = 6 * p.2.1.toNat + 96 * p.2.2.1.toNat := by decide

/-- A flag an instruction may not write, and an acceptance. -/
theorem witness_FlagsWrittenOnlyAsListed : (∃ t, exec (.inrR .b) start = .next t) ∧ Flag.cy ∉ flagsWritten (.inrR .b) ∧
    ∃ t, allRequests.accept .trap = .next t := ⟨⟨_, rfl⟩, by decide, _, rfl⟩

/-- SIM's enable bits on and off. -/
theorem witness_SetInterruptMask : (0x48 : Byte).getLsbD 3 = true ∧ (0x48 : Byte).getLsbD 6 = true ∧
    (0x10 : Byte).getLsbD 4 = true ∧ (0x48 : Byte).getLsbD 4 = false ∧ (0x10 : Byte).getLsbD 3 = false ∧
    (0x10 : Byte).getLsbD 6 = false := by decide

/-- A TRAP saved with the enable on, for ReadInterruptMask's two cases. -/
theorem witness_ReadInterruptMask : (∃ s : State, s.trapRIM = true ∧ s.trapIE = true ∧ s.ie = false) ∧
    start.trapRIM = false := ⟨⟨{ start with trapRIM := true, trapIE := true }, rfl, rfl, rfl⟩, rfl⟩

end Sys2Proof.Machine.Tests
end

section
/-! The scope statements (spec/00_scope.md): the arithmetic helpers of R9, the order of events within a step (R11), and that every
instruction completes (R12). -/

namespace Sys2Proof.Machine

/-! ### Subtraction and parity (R9) -/

/-- `sub8` is exact in numbers, a borrow out counting 256, and AC is the absence of a borrow from bit 4 (R9). It is the sum
with the complement 255 - y, so `add8_exact` gives both. -/
theorem sub8_exact (x y : Byte) (c : Bool) :
    (sub8 x y c).res.toNat + y.toNat + c.toNat = x.toNat + 256 * (sub8 x y c).cy.toNat ∧
    (sub8 x y c).ac = decide (y.toNat % 16 + c.toNat ≤ x.toNat % 16) := by
  obtain ⟨hsum, hac⟩ := add8_exact x (~~~y) (!c)
  have hy := y.isLt
  have hbin : (!c).toNat = 1 - c.toNat ∧ c.toNat ≤ 1 := by cases c <;> decide
  have hcy : (sub8 x y c).cy.toNat = 1 - (add8 x (~~~y) (!c)).cy.toNat ∧ (add8 x (~~~y) (!c)).cy.toNat ≤ 1 := by
    simp only [sub8]
    cases (add8 x (~~~y) (!c)).cy <;> decide
  simp only [BitVec.toNat_not] at hsum hac
  constructor
  · simp only [sub8] at hcy ⊢
    omega
  · simp only [sub8, hac, decide_eq_decide]
    omega

/-- The result of `sub8` is the difference modulo 256. -/
theorem sub8_res (x y : Byte) (c : Bool) : (sub8 x y c).res = x - y - BitVec.ofNat 8 c.toNat := by
  obtain ⟨hdiff, -⟩ := sub8_exact x y c
  have hc := c.toNat_le
  have hx := x.isLt
  apply BitVec.eq_of_toNat_eq
  simp only [BitVec.toNat_sub, BitVec.toNat_ofNat]
  omega

/-- CY after `sub8` is the borrow. -/
theorem sub8_cy (x y : Byte) (c : Bool) : (sub8 x y c).cy = decide (x.toNat < y.toNat + c.toNat) := by
  obtain ⟨hdiff, -⟩ := sub8_exact x y c
  have hx := x.isLt
  have hres := (sub8 x y c).res.isLt
  cases hcy : (sub8 x y c).cy <;> simp only [hcy, Bool.toNat_true, Bool.toNat_false] at hdiff
  · exact (decide_eq_false (by omega)).symm
  · exact (decide_eq_true (by omega)).symm

/-- `countOnes` counts the positions that hold a 1. -/
theorem countOnes_eq_length_filter (v : Byte) :
    countOnes v = ((List.range 8).filter fun k => v.getLsbD k).length := by
  have hrange : List.range 8 = [0, 1, 2, 3, 4, 5, 6, 7] := rfl
  rw [← List.countP_eq_length_filter, hrange]
  simp only [List.countP_cons, List.countP_nil, countOnes, Bool.toNat, Bool.cond_eq_ite]
  omega

/-- Settles O29: the exact sum of `add8_exact`, the exact difference of `sub8_exact` read as a result modulo 256 and a borrow,
and a parity that counts ones. -/
theorem arithmeticHelpersExact : Obligations.ArithmeticHelpersExact := by
  refine ⟨add8_exact, fun x y c => ⟨sub8_res x y c, sub8_cy x y c, (sub8_exact x y c).2⟩, fun v => ?_, fun f v => ?_⟩
  · rw [parity8, countOnes_eq_length_filter]
    rfl
  · rw [Flags.setSZP, beq_eq_decide]

/-! ### The order of events within one step (R11, D9) -/

/-- An open boundary accepts the request selected. -/
theorem State.boundary_accepts (s : State) (q : Request) (hr : s.pins.resetIn = false) (hh : s.pins.hold = false)
    (hs : s.starting = false) (hi : s.inhibit = false) (hq : s.selectInterrupt = some q) :
    s.boundary = .done (State.accept { s with hlda := false } q) := by
  rw [s.boundary_open hr hh hs hi, hq]

/-- An open boundary with no valid request leaves a halted CPU halted and lets a running one fetch. -/
theorem State.boundary_no_request (s : State) (hr : s.pins.resetIn = false) (hh : s.pins.hold = false)
    (hs : s.starting = false) (hi : s.inhibit = false) (hq : s.selectInterrupt = none) :
    s.boundary = if s.halted = true then .done (.next { s with hlda := false }) else .run { s with hlda := false } := by
  rw [s.boundary_open hr hh hs hi, hq]

/-- Settles O7: one lemma about the boundary for each place in the order. -/
theorem boundaryOrder : Obligations.BoundaryOrder := by
  rintro s _ rfl
  refine ⟨fun hr => ?reset, fun hr hh => ?hold, fun hr hh hclosed hrun => ?closed,
    fun hr hh hs hi => ⟨fun q hq => ?accepts, fun hq hhalt => ?halted, fun hq hrun => ?runs⟩⟩
  case reset => exact step_done s _ (State.boundary_reset _ hr)
  case hold => exact step_done s _ (State.boundary_hold _ hr hh)
  case closed => rw [State.boundary_closed _ hr hh hclosed, if_neg (by simp [hrun])]
  case accepts => exact step_done s _ (State.boundary_accepts _ q hr hh hs hi hq)
  case halted => exact step_done s _ (by rw [State.boundary_no_request _ hr hh hs hi hq, if_pos hhalt])
  case runs => rw [State.boundary_no_request _ hr hh hs hi hq, if_neg (by simp [hrun])]

/-! ### Every instruction completes (R12, R270) -/

/-- No arm of `exec` can stop: each one answers `.next` of a total function of the state, with no test before it. -/
theorem exec_next (i : Instr) (s : State) : ∃ t, exec i s = .next t := by
  cases i
  all_goals exact ⟨_, rfl⟩

/-- Settles O9, constructor by constructor. -/
theorem everyInstructionCompletes : Obligations.EveryInstructionCompletes := exec_next

end Sys2Proof.Machine
end

section
/-! The state statements (spec/10_state.md): what reset leaves (R46), the invariant that every step keeps, and which instruction may
write which flag (R31). -/

namespace Sys2Proof.Machine

/-! ### Reset (R46, R321) -/

/-- Settles O22: each value is a field of `State.reset`. -/
theorem resetState : Obligations.ResetState := ⟨rfl, rfl, rfl, rfl, rfl, rfl, rfl, rfl, rfl, rfl, rfl, rfl, rfl⟩

/-- Settles O11: memory is empty, so in canonical form; the CPU is neither halted nor in hold nor in reset; and the values of R46
are those of `State.reset`. -/
theorem invariantAtReset : Obligations.InvariantAtReset :=
  ⟨rfl, fun _ => rfl, nofun, fun _ => ⟨rfl, rfl, rfl, rfl, rfl, rfl, rfl, rfl, rfl⟩, nofun⟩

/-! ### The invariant in three parts, by who can write the fields of each -/

/-- The clauses about fields that nothing between bus transfers writes (`State.chip`). -/
def State.ChipInv (s : State) : Prop :=
  (s.halted = true → s.inhibit = false) ∧
  (s.starting = true →
    s.pc = 0 ∧ s.ie = false ∧ s.trapRIM = false ∧ s.m55 = true ∧ s.m65 = true ∧ s.m75 = true ∧ s.sod = false ∧
    s.inhibit = false ∧ s.halted = false) ∧
  (s.pins.resetIn = true → s.starting = true)

/-- While RESET IN is applied no request flip-flop is set. -/
def State.NoLatchInReset (s : State) : Prop := s.pins.resetIn = true → s.r75 = false ∧ s.trapFF = false

theorem State.inv_iff (s : State) : s.Inv ↔ s.Sound ∧ s.ChipInv ∧ s.NoLatchInReset := by
  constructor
  · rintro ⟨hmem, hhalted, hhlda, hstart, hreset⟩
    exact ⟨⟨hmem, hhlda⟩, ⟨hhalted, hstart, fun h => (hreset h).1⟩, fun h => (hreset h).2⟩
  · rintro ⟨⟨hmem, hhlda⟩, ⟨hhalted, hstart, hreset⟩, hlatch⟩
    exact ⟨hmem, hhalted, hhlda, hstart, fun h => ⟨hreset h, hlatch h⟩⟩

/-- Once the fetch that leaves reset is behind and RESET IN is released, two clauses are left. -/
theorem State.inv_of_started {s : State} (hs : s.starting = false) (hr : s.pins.resetIn = false) (h : s.Sound)
    (hh : s.halted = true → s.inhibit = false) : s.Inv :=
  ⟨h.1, hh, h.2, fun k => absurd (hs.symm.trans k) Bool.false_ne_true, fun k => absurd (hr.symm.trans k) Bool.false_ne_true⟩

theorem State.chipInv_of_chip_eq {s t : State} (h : t.chip = s.chip) (hs : s.ChipInv) : t.ChipInv := by
  have hc : t.chip.ChipInv := h ▸ (show s.chip.ChipInv from hs)
  exact hc

theorem stable_noLatchInReset : EventStable State.NoLatchInReset where
  frame s t h hs := by
    have hp : t.pins = s.pins := show t.machine.pins = s.machine.pins by rw [h]
    have hr : t.r75 = s.r75 := show t.machine.r75 = s.machine.r75 by rw [h]
    have ht : t.trapFF = s.trapFF := show t.machine.trapFF = s.machine.trapFF by rw [h]
    simpa only [State.NoLatchInReset, hp, hr, ht] using hs
  store s x v h := by simpa [State.NoLatchInReset] using h
  setPin s p b h := by
    cases p
    case trap => exact fun hr => ⟨(h hr).1, by simpa [State.setPin, (h hr).2] using fun _ _ => hr⟩
    case rst75 => exact fun hr => ⟨by simpa [State.setPin, (h hr).1] using fun _ _ => hr, (h hr).2⟩
    all_goals exact h
  endHold s h := h

/-! ### The environment keeps the invariant between two steps -/

theorem State.Inv.event {s : State} (h : s.Inv) (e : Event) : (s.event e).Inv := by
  obtain ⟨hsound, hchip, hlatch⟩ := s.inv_iff.mp h
  exact (s.event e).inv_iff.mpr
    ⟨stable_sound.event hsound e, State.chipInv_of_chip_eq (s.chip_event e) hchip, stable_noLatchInReset.event hlatch e⟩

/-- RESET IN writes every field the invariant names but memory, which it keeps (R46, R321). -/
theorem State.Inv.assertReset {s : State} (h : s.Inv) : s.assertReset.Inv :=
  ⟨s.assertReset_keeps.1 ▸ h.1, fun _ => rfl, nofun, fun _ => ⟨rfl, rfl, rfl, rfl, rfl, rfl, rfl, rfl, rfl⟩,
    fun _ => ⟨rfl, rfl, rfl⟩⟩

theorem State.Inv.releaseReset {s : State} (h : s.Inv) : s.releaseReset.Inv := by
  obtain ⟨hmem, hhalted, hhlda, hstart, -⟩ := h
  exact ⟨hmem, hhalted, fun k => ⟨(hhlda k).1, rfl⟩, hstart, nofun⟩

theorem State.Inv.boundaryEvent {s : State} (h : s.Inv) : ∀ e : BoundaryEvent, (s.boundaryEvent e).Inv
  | .bus e => h.event e
  | .resetIn true => h.assertReset
  | .resetIn false => h.releaseReset

theorem State.Inv.boundaryEvents {s : State} (h : s.Inv) (es : List BoundaryEvent) : (s.boundaryEvents es).Inv := by
  induction es generalizing s with
  | nil => exact h
  | cons e es ih => exact ih (h.boundaryEvent e)

theorem State.Inv.takeInputs {s : State} (h : s.Inv) : s.takeInputs.Inv := by
  unfold State.takeInputs
  split
  · exact h
  · next es rest _ =>
    have hi : ({ s with bus := [], env := { s.env with inputs := rest } } : State).Inv := h
    exact hi.boundaryEvents es

/-! ### Inside an instruction -/

/-- What holds from the fetch of an instruction on: the CPU is out of reset, not halted, and the inhibit is spent. -/
def State.Running (s : State) : Prop :=
  s.Sound ∧ s.starting = false ∧ s.inhibit = false ∧ s.halted = false ∧ s.pins.resetIn = false

theorem stable_running : EventStable State.Running where
  frame s t h hs := by
    obtain ⟨hsound, hrest⟩ := hs
    have hchip := State.chip_machine_eq ((stable_chip s.chip.machine).frame s t h rfl)
    refine ⟨stable_sound.frame s t h hsound, ?_⟩
    simpa only [hchip] using hrest
  store s x v h := ⟨stable_sound.store s x v h.1, by simpa using h.2⟩
  setPin s p b h := ⟨stable_sound.setPin s p b h.1, by cases p <;> exact h.2⟩
  endHold s h := ⟨stable_sound.endHold s h.1, h.2⟩

theorem State.Running.inv {s : State} (h : s.Running) : s.Inv := by
  obtain ⟨hsound, hstarting, hinhibit, -, hreset⟩ := h
  exact State.inv_of_started hstarting hreset hsound fun _ => hinhibit

/-- EI and DI set the inhibit of a CPU that is not halted, HLT halts one whose inhibit is spent, RIM and SIM write neither; the
rest keep `State.Running` (`Stable.exec`). -/
theorem State.Running.exec {s t : State} {i : Instr} (h : s.Running) (he : exec i s = .next t) : t.Inv := by
  by_cases hi : writesFlipFlop i = false
  · exact (stable_running.stable.exec h hi he).inv
  obtain ⟨hsound, hstarting, hinhibit, hhalted, hreset⟩ := h
  cases i
  case ei | di =>
    cases he
    exact State.inv_of_started hstarting hreset hsound fun k => absurd (hhalted.symm.trans k) Bool.false_ne_true
  case hlt | rim | sim =>
    cases he
    exact State.inv_of_started hstarting hreset hsound fun _ => hinhibit
  all_goals exact absurd rfl hi

/-- An acceptance leaves the halt state and writes no other field of `State.Running` (R281, R282, R285). -/
theorem State.accept_running {s t : State} {q : Request} (hsound : s.Sound) (hs : s.starting = false)
    (hi : s.inhibit = false) (hr : s.pins.resetIn = false) (ha : s.accept q = .next t) : t.Running :=
  stable_running.stable.accept (by cases q <;> exact ⟨hsound, hs, hi, rfl, hr⟩) ha

/-! ### The boundary, and the step -/

/-- What a boundary owes the invariant: a state that meets it as an answer, or a running state in which to fetch. -/
def Boundary.KeepsInv : Boundary → Prop
  | .done r => ∀ t, r = .next t → t.Inv
  | .run t => t.Running

/-- With its inhibit spent and RESET IN released, a halted CPU is left to wait and another one runs. -/
theorem Boundary.keepsInv_wait_or_run {s : State} (hsound : s.Sound) (hs : s.starting = false) (hi : s.inhibit = false)
    (hr : s.pins.resetIn = false) :
    (if s.halted = true then Boundary.done (.next s) else .run s).KeepsInv := by
  split
  · rintro _ ⟨⟩
    exact State.inv_of_started hs hr hsound fun _ => hi
  · next hh => exact ⟨hsound, hs, hi, Bool.eq_false_iff.mpr hh, hr⟩

/-- The boundary's branches in the order of R11 and D9. -/
theorem State.Inv.boundary {s : State} (h : s.Inv) : s.boundary.KeepsInv := by
  have ⟨hmem, hhalted, _, hstart, hreset⟩ := h
  have hsound : ({ s with hlda := false } : State).Sound := ⟨hmem, nofun⟩
  by_cases hr : s.pins.resetIn = true
  · rw [s.boundary_reset hr]
    rintro _ ⟨⟩
    exact h
  rw [Bool.not_eq_true] at hr
  by_cases hh : s.pins.hold = true
  · rw [s.boundary_hold hr hh]
    rintro _ ⟨⟩
    exact ⟨hmem, hhalted, fun _ => ⟨hh, hr⟩, hstart, hreset⟩
  rw [Bool.not_eq_true] at hh
  by_cases hc : s.starting = true ∨ s.inhibit = true
  · rw [s.boundary_closed hr hh hc]
    exact Boundary.keepsInv_wait_or_run (s := { s with hlda := false, starting := false, inhibit := false }) hsound rfl rfl hr
  rw [not_or, Bool.not_eq_true, Bool.not_eq_true] at hc
  rw [s.boundary_open hr hh hc.1 hc.2]
  split
  · exact fun t ha => (State.accept_running hsound hc.1 hc.2 hr ha).inv
  · exact Boundary.keepsInv_wait_or_run hsound hc.1 hc.2 hr

/-- Settles O10: the inputs keep the invariant, the boundary keeps it or goes on in a running state, which the fetch keeps, and the
instruction leads back to the invariant. -/
theorem invariantKept : Obligations.InvariantKept := by
  intro s t hinv hstep
  have hb := hinv.takeInputs.boundary
  rcases step_cases s with ⟨r, hdone, hr⟩ | ⟨u, i, v, hrun, hfetch, hexec⟩ | ⟨_, _, _, _, hrefused⟩
  · rw [hdone] at hb
    exact hb t (hr.symm.trans hstep)
  · rw [hrun] at hb
    exact State.Running.exec (stable_running.stable.fetch hb hfetch) (hexec.symm.trans hstep)
  · exact absurd (hrefused.symm.trans hstep) nofun

/-! ### Flags written (R31) -/

@[simp] theorem State.idle_flags (s : State) (k : CycleKind) (n : Nat) : (s.idle k n).flags = s.flags := rfl
@[simp] theorem State.draw_flags (s : State) : s.draw.2.flags = s.flags := rfl
@[simp] theorem State.readM_flags (s : State) : s.readM.2.flags = s.flags := s.memRead_flags _
@[simp] theorem State.writeM_flags (s : State) (v : Byte) : (s.writeM v).flags = s.flags := s.memWrite_flags _ v
@[simp] theorem State.callTo_flags (s : State) (x : Word) : (s.callTo x).flags = s.flags := s.push16_flags _
@[simp] theorem State.returnFrom_flags (s : State) : s.returnFrom.flags = s.flags := s.pop16_flags

@[simp] theorem State.jumpIf_flags (s : State) (cc : Cond) (x : Word) : (s.jumpIf cc x).flags = s.flags := by
  unfold State.jumpIf; split <;> rfl

@[simp] theorem State.callIf_flags (s : State) (cc : Cond) (x : Word) : (s.callIf cc x).flags = s.flags := by
  unfold State.callIf; split
  · exact s.callTo_flags x
  · rfl

@[simp] theorem State.returnIf_flags (s : State) (cc : Cond) : (s.returnIf cc).flags = s.flags := by
  unfold State.returnIf; split
  · exact s.returnFrom_flags
  · rfl

@[simp] theorem State.acknowledge_flags (s : State) (q : Request) : (s.acknowledge q).flags = s.flags := by cases q <;> rfl

/-- The four rows of R31's list. -/
theorem flagsWritten_mem_rows (i : Instr) :
    flagsWritten i ∈ [[Flag.s, .z, .ac, .p, .cy], [.s, .z, .ac, .p], [.cy], []] := by
  cases i <;> exact of_decide_eq_true rfl

/-- An instruction that R31 does not name writes no flag: the control instructions write flip-flops, and each of the others is made
of operations that keep the flags. -/
theorem exec_flags_eq {i : Instr} {s t : State} (hi : flagsWritten i = []) (he : exec i s = .next t) : t.flags = s.flags := by
  cases i <;> cases hi <;> cases he
  case ei | di | nop | hlt | rim | sim => rfl
  all_goals simp

/-- INR and DCR keep CY. -/
theorem exec_cy_eq {i : Instr} {s t : State} (hi : flagsWritten i = [.s, .z, .ac, .p]) (he : exec i s = .next t) :
    t.flags.cy = s.flags.cy := by
  cases i
  case inrR | dcrR | inrM | dcrM => cases he; rfl
  all_goals cases hi

/-- The rotates, DAD, STC and CMC put a bit into CY and keep the other four. -/
theorem exec_flags_but_cy {i : Instr} {s t : State} (hi : flagsWritten i = [.cy]) (he : exec i s = .next t) :
    ∃ b, t.flags = { s.flags with cy := b } := by
  cases i
  case rlc | rrc | ral | rar | dadB | dadD | dadH | dadSP | stc | cmc => cases he; exact ⟨_, rfl⟩
  all_goals cases hi

theorem Flag.mem_all (f : Flag) : f ∈ [Flag.s, .z, .ac, .p, .cy] := by cases f <;> decide

theorem Flag.eq_cy_of_not_mem {f : Flag} (h : f ∉ [Flag.s, .z, .ac, .p]) : f = .cy := by
  revert h
  cases f <;> decide

theorem Flags.get_set_cy (fs : Flags) (b : Bool) {f : Flag} (h : f ≠ .cy) : ({ fs with cy := b } : Flags).get f = fs.get f := by
  cases f
  case cy => exact absurd rfl h
  all_goals rfl

/-- An acceptance writes no flag, by either entry (R285). -/
theorem accept_flags_eq {q : Request} {s t : State} (ha : s.accept q = .next t) : t.flags = s.flags := by
  cases q
  case intr =>
    simp only [State.accept, State.acceptIntr] at ha
    split at ha
    · cases ha; simp
    · split at ha <;> cases ha
      simp
  all_goals
    cases ha
    simp [State.acceptRestart]

/-- Settles O57: by the row of R31's list that names the instruction, and `accept_flags_eq`. -/
theorem flagsWrittenOnlyAsListed : Obligations.FlagsWrittenOnlyAsListed := by
  refine ⟨fun i s t f he hf => ?_, fun s t q => accept_flags_eq⟩
  have hrow := flagsWritten_mem_rows i
  simp only [List.mem_cons, List.not_mem_nil, or_false] at hrow
  rcases hrow with hi | hi | hi | hi <;> rw [hi] at hf
  · exact absurd f.mem_all hf
  · rw [Flag.eq_cy_of_not_mem hf]
    exact exec_cy_eq hi he
  · obtain ⟨b, hb⟩ := exec_flags_but_cy hi he
    rw [hb, Flags.get_set_cy _ b (fun h => hf (h ▸ List.mem_singleton_self _))]
  · rw [exec_flags_eq hi he]

end Sys2Proof.Machine
end

section
/-! The memory statements (spec/20_memory.md): what a read, a fetch and a write do under any environment (R68, R70, R71, R76, R78),
wait states (R73), the skipped third byte (R80), and the machine cycle and machine state charts (R64, R65). -/

namespace Sys2Proof.Machine

/-! ### A transfer under any environment (R68, R70) -/

@[simp] theorem State.kindOf_gap (s : State) (x : Word) : s.gap.1.kindOf x = s.kindOf x := by simp [State.kindOf]

@[simp] theorem State.kindOf_memWrite (s : State) (x : Word) (v : Byte) (y : Word) :
    (s.memWrite x v).kindOf y = s.kindOf y := by simp [State.kindOf]

@[simp] theorem State.kindOf_memRead (s : State) (x y : Word) : (s.memRead x).2.kindOf y = s.kindOf y := by
  simp [State.kindOf]

@[simp] theorem State.hl_memRead (s : State) (x : Word) : (s.memRead x).2.hl = s.hl := by simp [State.hl, State.rp]

@[simp] theorem State.byteAt_setPin (s : State) (p : Pin) (b : Bool) (x : Word) : (s.setPin p b).byteAt x = s.byteAt x := by
  cases p <;> rfl

@[simp] theorem State.kindOf_setPin (s : State) (p : Pin) (b : Bool) (x : Word) : (s.setPin p b).kindOf x = s.kindOf x := by
  cases p <;> rfl

theorem State.stored_of_ram {s : State} {x : Word} (h : s.kindOf x = .ram) : s.stored x :=
  fun hdev => MemKind.noConfusion (h.symm.trans hdev)

/-- The gap before a transfer the environment has a plan for. -/
theorem State.gap_cons {s : State} {e : Xfer} {rest : List Xfer} (h : s.env.xfers = e :: rest) :
    s.gap = ((({ s with env := { s.env with xfers := rest } } : State).events e.events).endHold, e.waits) := by
  unfold State.gap
  rw [h]

/-- A read of RAM or ROM returns the byte that stands there when the gap before it is over. -/
theorem State.memRead_stored {s : State} {x : Word} (h : s.stored x) :
    s.memRead x = (s.gap.1.byteAt x, s.gap.1.log .memRead (some x) (some (s.gap.1.byteAt x)) 3 s.gap.2) := by
  have hg : s.gap.1.stored x := by simpa [State.stored] using h
  simp only [State.memRead, State.sample_stored _ x hg]

/-- Every byte after a write: the one written where the platform has RAM, every other as the gap before it left it. -/
theorem State.byteAt_memWrite (s : State) (x : Word) (v : Byte) (y : Word) :
    (s.memWrite x v).byteAt y = if y = x ∧ s.kindOf x = .ram then v else s.gap.1.byteAt y := by
  simp only [State.memWrite, State.byteAt_log, State.byteAt_store, State.kindOf_gap]

/-- RAM holds the byte written to it. -/
theorem State.byteAt_memWrite_ram {s : State} {x : Word} (h : s.kindOf x = .ram) (v : Byte) :
    (s.memWrite x v).byteAt x = v := by
  rw [State.byteAt_memWrite, if_pos ⟨rfl, h⟩]

/-! ### Quiet reads (R68, R78) -/

theorem State.reads_stored {s : State} {x : Word} (h : s.stored x) : s.reads x = s.byteAt x := by
  rw [State.reads, State.sample_stored s x h]

theorem State.reads_device {s : State} {x : Word} {w : Byte} {rest : List Byte} (h : s.kindOf x = .device)
    (hw : s.env.memIn = w :: rest) : s.reads x = w := by
  simp only [State.reads, State.sample, h, Env.memAnswer, hw]

theorem State.memWrite_env_quiet {s : State} (h : s.Quiet) (x : Word) (v : Byte) : (s.memWrite x v).env = s.env := by
  rw [State.memWrite_quiet s x v h]
  exact s.store_env x v

/-- Settles O31: the bytes by `byteAt_memWrite`, the read after the write by what stands at its address. -/
theorem memoryReadsAndWrites : Obligations.MemoryReadsAndWrites := by
  intro s x v hq
  have hread : ((s.memWrite x v).memRead x).1 = (s.memWrite x v).reads x := State.memRead_value _ x (hq.memWrite x v)
  have hbytes : ∀ y, (s.memWrite x v).byteAt y = if y = x ∧ s.kindOf x = .ram then v else s.byteAt y := fun y => by
    rw [State.byteAt_memWrite, State.gap_quiet s hq]
  refine ⟨hbytes, fun hram => ?ram, fun hrom => ?rom, fun w rest hdev hw => ?device⟩
  case ram =>
    have hst : (s.memWrite x v).stored x := State.stored_of_ram (by simpa using hram)
    rw [hread, State.reads_stored hst, State.byteAt_memWrite_ram hram]
  case rom =>
    have hst : (s.memWrite x v).stored x := by simp [State.stored, hrom]
    rw [hread, State.reads_stored hst, hbytes, if_neg (by simp [hrom])]
  case device =>
    rw [hread]
    exact State.reads_device (by simpa using hdev) ((State.memWrite_env_quiet hq x v).symm ▸ hw)

/-- Settles O33: the fetch reads RAM after the store, and nothing happens between them. -/
theorem storeSeenByNextFetch : Obligations.StoreSeenByNextFetch := by
  intro s addr hq hram
  refine ⟨s.memWrite addr s.a, rfl, ?_⟩
  have hst : ((s.memWrite addr s.a).setPc addr).stored addr := State.stored_of_ram (by simpa [State.kindOf] using hram)
  calc (((s.memWrite addr s.a).setPc addr).opFetch).1
      = ((s.memWrite addr s.a).setPc addr).reads addr := by
        rw [State.opFetch_quiet ((s.memWrite addr s.a).setPc addr) (hq.memWrite addr s.a)]
        rfl
    _ = (s.memWrite addr s.a).byteAt addr := State.reads_stored hst
    _ = s.a := State.byteAt_memWrite_ram hram s.a

/-! ### Another master between a read and a write (R70, R71, R76) -/

/-- Another master that takes the bus, writes one byte and gives the bus back: out of reset the write is made. -/
theorem State.events_holdWrite {s : State} (hr : s.pins.resetIn = false) (x : Word) (v : Byte) :
    s.events [.pin .hold true, .dma x v, .pin .hold false] = ((s.setPin .hold true).store x v).setPin .hold false := by
  have hfree : (s.setPin .hold true).busFree = true := by simp [State.busFree, State.setPin, hr]
  simp only [State.events, State.event, hfree, if_true]

/-- A gap in which another master writes a byte of RAM and does nothing else leaves that byte there. -/
theorem State.byteAt_gap_holdWrite {s : State} {x : Word} {v : Byte} {n : Nat} {rest : List Xfer}
    (hr : s.pins.resetIn = false) (hk : s.kindOf x = .ram)
    (hx : s.env.xfers = ⟨[.pin .hold true, .dma x v, .pin .hold false], n⟩ :: rest) : s.gap.1.byteAt x = v := by
  rw [State.gap_cons hx]
  show (State.events _ [.pin .hold true, .dma x v, .pin .hold false]).byteAt x = v
  rw [State.events_holdWrite, State.byteAt_setPin, State.byteAt_store, State.kindOf_setPin, if_pos ⟨rfl, hk⟩]
  exact hr

theorem add8_one_res (x : Byte) : (add8 x 1 false).res = x + 1 := by
  obtain ⟨hsum, -⟩ := add8_exact x 1 false
  have hres := (add8 x 1 false).res.isLt
  apply BitVec.eq_of_toNat_eq
  simp only [BitVec.toNat_add, Bool.toNat_false] at hsum ⊢
  omega

/-- INR M under any environment: RAM holds one more than the byte the read returned. -/
theorem inrM_byteAt_ram {s : State} (h : s.kindOf s.hl = .ram) :
    ∃ t, exec .inrM s = .next t ∧ t.byteAt s.hl = s.readM.1 + 1 := by
  refine ⟨_, rfl, ?_⟩
  have hm : s.readM.2.hl = s.hl := s.hl_memRead s.hl
  have hk : s.readM.2.kindOf s.hl = .ram := (s.kindOf_memRead s.hl s.hl).trans h
  simp only [State.writeM, hm, State.byteAt_setFlags]
  rw [State.byteAt_memWrite_ram hk, add8_one_res]

/-- Settles O32: nothing happens before the read, so it returns the old byte; the other master's byte stands in the gap after it;
and the write puts the old byte plus 1 over it. -/
theorem incrementLosesOtherMastersWrite : Obligations.IncrementLosesOtherMastersWrite := by
  intro s w rest hram hr hx
  have hread : s.readM = _ := State.memRead_stored (State.stored_of_ram hram)
  rw [State.gap_cons hx] at hread
  have hold : s.readM.1 = s.byteAt s.hl := congrArg Prod.fst hread
  have hnext : s.readM.2.env.xfers = ⟨[.pin .hold true, .dma s.hl w, .pin .hold false], 0⟩ :: rest :=
    congrArg (fun r => r.2.env.xfers) hread
  have hreset : s.readM.2.pins.resetIn = false := (State.chip_eq_resetIn (s.chip_memRead s.hl)).trans hr
  obtain ⟨t, ht, hbyte⟩ := inrM_byteAt_ram hram
  exact ⟨t, ht, hold ▸ hbyte, State.byteAt_gap_holdWrite hreset ((s.kindOf_memRead s.hl s.hl).trans hram) hnext⟩

/-! ### Wait states (R73) -/

/-- Putting `n` waits into the last cycle recorded is recording it with `n` waits. -/
theorem withWaits_log (s : State) (k : CycleKind) (x : Option Word) (v : Option Byte) (b w n : Nat) :
    withWaits (s.log k x v b w) n = s.log k x v b n := by
  simp [withWaits, State.log]

theorem CycleKind.ne_of_transfers {k j : CycleKind} (hk : k.transfers = true) (hj : j.transfers = false) : k ≠ j := by
  rintro rfl
  exact Bool.false_ne_true (hj.symm.trans hk)

/-- Settles O28: the two gaps differ in the waits alone, and a transfer puts them into the cycle it records and nowhere else. -/
theorem waitStatesOnlyStretch : Obligations.WaitStatesOnlyStretch := by
  refine ⟨fun s t es rest n hs ht => ?whole, fun k x v b n hk => ?cycle⟩
  case whole =>
    subst ht
    have hgs := State.gap_cons hs
    have hgt : State.gap { s with env := { s.env with xfers := ⟨es, n⟩ :: rest } } = (s.gap.1, n) := by
      rw [State.gap_cons rfl, hgs]
    refine ⟨fun x => ?_, ?_, fun x v => ?_, fun port => ?_, fun port v => ?_⟩
    · simp only [State.memRead, hgt, withWaits_log, and_self]
    · simp only [State.opFetch, hgt, withWaits_log, and_self]
    · simp only [State.memWrite, hgt, withWaits_log]
    · simp only [State.ioRead, hgt, withWaits_log, and_self]
    · simp only [State.ioWrite, hgt, withWaits_log]
  case cycle =>
    have hidle : k ≠ .idleHalt := CycleKind.ne_of_transfers hk rfl
    refine ⟨rfl, ?_⟩
    rw [BusCycle.tStates_eq _ hidle, BusCycle.tStates_eq _ hidle, List.append_assoc _ [TState.t3]]
    rfl

/-! ### The skipped third byte (R80, R331) -/

/-- Whether byte 3 is skipped, by the column of the opcode and its condition. -/
theorem skipsThird_iff (op : Byte) (f : Flags) :
    skipsThird op f = true ↔
      opGroup op = 3 ∧ (opLow op = 2 ∨ opLow op = 4) ∧ condHolds f (Cond.ofCode (opMid op)) = false := by
  simp [skipsThird, and_assoc]

theorem State.jumpIf_of_false {s : State} {cc : Cond} (h : condHolds s.flags cc = false) (x : Word) : s.jumpIf cc x = s := by
  rw [State.jumpIf, h]
  rfl

theorem State.callIf_of_false {s : State} {cc : Cond} (h : condHolds s.flags cc = false) (x : Word) : s.callIf cc x = s := by
  rw [State.callIf, h]
  rfl

/-- An opcode whose third byte is skipped is a conditional jump or call, and with its condition false that does nothing. -/
theorem decodeOp_of_skipsThird {op : Byte} {f : Flags} (h : skipsThird op f = true) :
    ∃ g, decodeOp op = .i16 g ∧ ∀ (w : Word) (s : State), s.flags = f → exec (g w) s = .next s := by
  obtain ⟨hg, hl, hc⟩ := (skipsThird_iff op f).mp h
  have hm : opMid op < 8 := Nat.mod_lt _ (by decide)
  simp only [decodeOp, hg]
  generalize opMid op = m at hc hm
  rcases hl with hl | hl <;> rw [hl]
  · interval_cases m
    all_goals exact ⟨_, rfl, fun w s hf => congrArg Host.Outcome.next (State.jumpIf_of_false (hf ▸ hc) w)⟩
  · interval_cases m
    all_goals exact ⟨_, rfl, fun w s hf => congrArg Host.Outcome.next (State.callIf_of_false (hf ▸ hc) w)⟩

/-- The opcode fetch of a conditional jump has four T states, that of a conditional call six (R331). -/
theorem fetchTStates_of_skipsThird {op : Byte} {f : Flags} (h : skipsThird op f = true) :
    fetchTStates op = if op.toNat % 8 = 2 then 4 else 6 := by
  obtain ⟨hg, hl, -⟩ := (skipsThird_iff op f).mp h
  simp only [opGroup] at hg
  simp only [opLow] at hl
  rcases hl with hl | hl <;> simp [fetchTStates, hg, hl]

/-- A quiet fetch that skips its third byte: an opcode fetch and one memory read, and PC three further. -/
theorem State.fetch_skipsThird {t : State} {g : Word → Instr} (hq : t.Quiet) (h0 : t.stored t.pc) (h1 : t.stored (t.pc + 1))
    (hd : decodeOp (t.byteAt t.pc) = .i16 g) (hs : skipsThird (t.byteAt t.pc) t.flags = true) :
    t.fetch = .ok (g (pair (t.byteAt (t.pc + 2)) (t.byteAt (t.pc + 1)))) { t with
      pc := t.pc + 3
      bus := t.bus ++ [⟨.opFetch, some t.pc, some (t.byteAt t.pc), fetchTStates (t.byteAt t.pc), 0⟩,
        mr (t.pc + 1) (t.byteAt (t.pc + 1))] } := by
  have h8 := State.fetch8_quiet
    ((t.log .opFetch (some t.pc) (some (t.byteAt t.pc)) (fetchTStates (t.byteAt t.pc)) 0).setPc (t.pc + 1)) hq h1
  simp only [State.fetch, State.opFetch_quiet t hq, State.sample_stored t _ h0, hd, hs, if_true, h8]
  simp [State.skip8, State.log, State.setPc, State.byteAt, mr, BitVec.add_assoc]

/-- Settles O27: each row of the table is an opcode whose third byte is skipped; its fetch is `fetch_skipsThird`, and what it runs
does nothing. -/
theorem falseConditionSkipsThirdByte : Obligations.FalseConditionSkipsThirdByte := by
  rintro s t op holds hb hq h0 h1 hop hrow rfl
  have hskip : skipsThird op t.flags = true := by
    simp only [List.mem_cons, List.not_mem_nil, or_false, Prod.mk.injEq] at hrow
    rcases hrow with ⟨hrow, h⟩ | ⟨hrow, h⟩ | ⟨hrow, h⟩ | ⟨hrow, h⟩ | ⟨hrow, h⟩ | ⟨hrow, h⟩ | ⟨hrow, h⟩ | ⟨hrow, h⟩ |
      ⟨hrow, h⟩ | ⟨hrow, h⟩ | ⟨hrow, h⟩ | ⟨hrow, h⟩ | ⟨hrow, h⟩ | ⟨hrow, h⟩ | ⟨hrow, h⟩ | ⟨hrow, h⟩
    all_goals
      rw [hrow]
      exact (skipsThird_iff _ _).mpr ⟨rfl, by decide, h.symm⟩
  obtain ⟨g, hd, hexec⟩ := decodeOp_of_skipsThird hskip
  rw [← fetchTStates_of_skipsThird hskip]
  subst hop
  rw [step_run s t _ _ hb (State.fetch_skipsThird hq h0 h1 hd hskip)]
  exact hexec _ _ rfl

/-! ### The machine cycle and machine state charts (R45, R64, R65) -/

/-- The status lines in T1 to T6 are the cycle's (R45). -/
theorem TState.status_of_mem {c : BusCycle} {t : TState} (h : t ∈ c.tStates) : TState.status c t = c.kind.status := by
  rcases c.mem_tStates t h with ht | ⟨ht, -⟩
  all_goals
    simp only [List.mem_cons, List.not_mem_nil, or_false] at ht
    rcases ht with rfl | rfl | rfl | rfl
    all_goals rfl

/-- The status lines of Table 3 in T1 to T3 are those of Table 2. -/
theorem TState.lines_status_early {c : BusCycle} {t : TState} (h : t ∈ [TState.t1, .t2, .tWait, .t3]) :
    (TState.lines c t).ioM = c.kind.lines.ioM ∧ (TState.lines c t).s1 = c.kind.lines.s1 ∧
    (TState.lines c t).s0 = c.kind.lines.s0 := by
  simp only [List.mem_cons, List.not_mem_nil, or_false] at h
  rcases h with rfl | rfl | rfl | rfl
  all_goals exact ⟨rfl, rfl, rfl⟩

/-- The lines of Table 3 in T4 to T6. -/
theorem TState.lines_late (c : BusCycle) (t : TState) (h : t ∈ [TState.t4, .t5, .t6]) :
    TState.lines c t =
      ⟨if c.kind = .intAck then .high else .low, .high, .high, .unspecified, .floating, .high, .high, .high, .low⟩ := by
  simp only [List.mem_cons, List.not_mem_nil, or_false] at h
  rcases h with rfl | rfl | rfl
  all_goals rfl

/-- The cycles that have a T4: their S1 and S0 are 1, and but in the acknowledge of TRAP and RST x.5 IO/M is what Table 3 has in T4
to T6. -/
theorem CycleKind.lines_of_long :
    ∀ k ∈ [CycleKind.opFetch, .intAck, .idleAck], k.lines.s1 = .high ∧ k.lines.s0 = .high ∧
      (k ≠ .idleAck → k.lines.ioM = if k = .intAck then .high else .low) := by decide

/-- Table 3 agrees with R45 on the status lines, but on IO/M in T4 to T6 of the acknowledge of TRAP and RST x.5. -/
theorem TState.lines_agree_status (c : BusCycle) (t : TState)
    (hc : c.base ≤ 3 ∨ c.kind ∈ [CycleKind.opFetch, .intAck, .idleAck]) (h : t ∈ c.tStates) :
    (TState.lines c t).s1 = (TState.status c t).s1 ∧ (TState.lines c t).s0 = (TState.status c t).s0 ∧
    (c.kind ≠ .idleAck ∨ t ∉ [TState.t4, .t5, .t6] → (TState.lines c t).ioM = (TState.status c t).ioM) := by
  rw [TState.status_of_mem h]
  rcases c.mem_tStates t h with ht | ⟨ht, hlong⟩
  · obtain ⟨hio, hs1, hs0⟩ := TState.lines_status_early (c := c) ht
    exact ⟨hs1, hs0, fun _ => hio⟩
  · obtain ⟨hs1, hs0, hio⟩ := CycleKind.lines_of_long c.kind (hc.resolve_left (Nat.not_le_of_lt hlong))
    rw [TState.lines_late c t ht]
    exact ⟨hs1.symm, hs0.symm, fun hne => (hio (hne.resolve_right fun hn => hn ht)).symm⟩

/-- The lines of a cycle that is no halt idle: those of T1; those of T2 in T2, the wait states and T3; and those of T4 to its end. -/
theorem BusCycle.waveform_eq (c : BusCycle) (h : c.kind ≠ .idleHalt) :
    c.waveform = TState.lines c .t1 ::
      (List.replicate (2 + c.waits) (TState.lines c .t2) ++ List.replicate (min (c.base - 3) 3) (TState.lines c .t4)) := by
  have hmid : TState.lines c .t2 :: (List.replicate c.waits (TState.lines c .t2) ++ [TState.lines c .t2]) =
      List.replicate (2 + c.waits) (TState.lines c .t2) := by
    rw [← List.replicate_succ', ← List.replicate_succ, Nat.add_comm 2]
  have hend : (([.t4, .t5, .t6] : List TState).take (c.base - 3)).map (TState.lines c) =
      List.replicate (min (c.base - 3) 3) (TState.lines c .t4) := by
    rw [List.map_take, ← List.take_replicate]
    rfl
  rw [BusCycle.waveform, BusCycle.tStates_eq c h, List.map_append, hend, ← hmid]
  simp [TState.lines]

/-- The lines of a cycle that moves a byte. -/
theorem BusCycle.waveform_of_transfers {k : CycleKind} (hk : k.transfers = true) (x : Word) (v : Byte) (n w : Nat) :
    (⟨k, some x, some v, n, w⟩ : BusCycle).waveform =
      ⟨k.lines.ioM, k.lines.s1, k.lines.s0, .address (hiByte x), .address (loByte x), .high, .high, .high, .high⟩ ::
      (List.replicate (2 + w)
        ⟨k.lines.ioM, k.lines.s1, k.lines.s0, .address (hiByte x), .data v, k.lines.rd, k.lines.wr, k.lines.inta, .low⟩ ++
       List.replicate (min (n - 3) 3)
        ⟨if k = .intAck then .high else .low, .high, .high, .unspecified, .floating, .high, .high, .high, .low⟩) := by
  have hale : (if k = .idleDad then Level.low else .high) = .high := if_neg (CycleKind.ne_of_transfers hk rfl)
  rw [BusCycle.waveform_eq _ (CycleKind.ne_of_transfers hk rfl)]
  simp only [TState.lines, hale]
  rfl

/-- No bus idle cycle pulls RD, WR or INTA low (R64). -/
theorem CycleKind.lines_of_idle (k : CycleKind) (h : k.transfers = false) :
    k.lines.rd ≠ .low ∧ k.lines.wr ≠ .low ∧ k.lines.inta ≠ .low := by
  revert h
  cases k <;> decide

/-- Settles O25: the nine rows are `CycleKind.lines`; the lines of T4 to T6, the status lines, their agreement and the lines of a
whole cycle are the lemmas above. -/
theorem controlLinesOfCycles : Obligations.ControlLinesOfCycles := by
  refine ⟨rfl, rfl, rfl, rfl, rfl, rfl, rfl, rfl, rfl, CycleKind.lines_of_idle, TState.lines_late, fun c => ⟨?stable, rfl, ?idle⟩,
    TState.lines_agree_status, fun _ => rfl, fun k x v n w hk _ => BusCycle.waveform_of_transfers hk x v n w⟩
  case stable => exact fun t => TState.status_of_mem
  case idle => exact List.forall_mem_cons.mpr ⟨rfl, List.forall_mem_singleton.mpr rfl⟩

end Sys2Proof.Machine
end

section
/-! The encoding statements (spec/30_encoding.md): decoding and encoding undo each other (R100 to R109, R115), what an unassigned first
byte does (R110), the length by the first byte (R113), and what a step runs (R101). -/

namespace Sys2Proof.Machine

/-! ### Instructions by the form of their first byte (R100) -/

/-- An instruction and its bytes, as the form of the first byte has them. -/
inductive Spelled : Instr → List Byte → Prop
  | r {op : Byte} {i : Instr} (h : decodeOp op = .r i) : Spelled i [op]
  | i8 {op : Byte} {f : Byte → Instr} (v : Byte) (h : decodeOp op = .i8 f) : Spelled (f v) [op, v]
  | i16 {op : Byte} {f : Word → Instr} (w : Word) (h : decodeOp op = .i16 f) : Spelled (f w) (encode16 op w)

/-- Every row of the table is spelled by its encoding, with every operand (R108). -/
theorem spelled_encode (i : Instr) (h : i.WellFormed) : Spelled i (encode i) := by
  cases i
  case rst n =>
    have hn : n < 8 := of_decide_eq_true h
    interval_cases n
    all_goals exact .r rfl
  case movRR dst src =>
    cases dst
    all_goals
      cases src
      all_goals exact .r rfl
  case movMR r | movRM r | inrR r | dcrR r | addR r | adcR r | subR r | sbbR r | anaR r | xraR r | oraR r | cmpR r =>
    cases r
    all_goals exact .r rfl
  case mviR dst data =>
    cases dst
    all_goals exact .i8 data rfl
  case mviM v | inp v | out v | adi v | aci v | sui v | sbi v | ani v | xri v | ori v | cpi v => exact .i8 v rfl
  case lxiB w | lxiD w | lxiH w | lxiSP w | sta w | lda w | shld w | lhld w | jmp w | jc w | jnc w | jz w | jnz w | jp w | jm w |
      jpe w | jpo w | call w | cc w | cnc w | cz w | cnz w | cp w | cm w | cpe w | cpo w =>
    exact .i16 w rfl
  all_goals exact .r rfl

/-- What `decodeOp_formOf` says of a byte whose form is known. -/
theorem formOf_of_decodeOp {op : Byte} {fm : Form} (h : decodeOp op = fm) : FormOf op fm := h ▸ decodeOp_formOf op

/-- Only a well-formed instruction is spelled, and by its encoding alone. -/
theorem Spelled.encodes {i : Instr} {bs : List Byte} (h : Spelled i bs) : i.WellFormed ∧ encode i = bs := by
  cases h with
  | r h => exact formOf_of_decodeOp h
  | i8 v h => exact formOf_of_decodeOp h v
  | i16 w h => exact formOf_of_decodeOp h w

/-! ### Decoding by the form of the first byte -/

theorem decode_of_r {op : Byte} {i : Instr} (h : decodeOp op = .r i) (bs : List Byte) : decode (op :: bs) = .ok i bs := by
  simp only [decode, h]

theorem decode_of_i8 {op : Byte} {f : Byte → Instr} (h : decodeOp op = .i8 f) (v : Byte) (bs : List Byte) :
    decode (op :: v :: bs) = .ok (f v) bs := by
  simp only [decode, h]

theorem decode_of_i16 {op : Byte} {f : Word → Instr} (h : decodeOp op = .i16 f) (lo hi : Byte) (bs : List Byte) :
    decode (op :: lo :: hi :: bs) = .ok (f (pair hi lo)) bs := by
  simp only [decode, h]

theorem decode_of_unused {op : Byte} (h : decodeOp op = .unused) (bs : List Byte) : decode (op :: bs) = .unusedOpcode op := by
  simp only [decode, h]

/-- The decoder reads what is spelled, whatever follows it (R101, R107). -/
theorem Spelled.decode {i : Instr} {head : List Byte} (h : Spelled i head) (rest : List Byte) :
    decode (head ++ rest) = .ok i rest := by
  cases h with
  | r h => exact decode_of_r h rest
  | i8 v h => exact decode_of_i8 h v rest
  | i16 w h => exact (decode_of_i16 h _ _ rest).trans (by rw [pair_hi_lo])

/-- What the decoder reads is spelled by the bytes it takes off the sequence. -/
theorem spelled_of_decode {bs : List Byte} {i : Instr} {rest : List Byte} (hd : decode bs = .ok i rest) :
    ∃ head, Spelled i head ∧ bs = head ++ rest := by
  cases bs with
  | nil => cases hd
  | cons op bs =>
    cases hop : decodeOp op with
    | r j =>
      cases (decode_of_r hop bs).symm.trans hd
      exact ⟨[op], .r hop, rfl⟩
    | i8 f =>
      match bs with
      | [] => simp [decode, hop] at hd
      | v :: tail =>
        cases (decode_of_i8 hop v tail).symm.trans hd
        exact ⟨[op, v], .i8 v hop, rfl⟩
    | i16 f =>
      match bs with
      | [] | [_] => simp [decode, hop] at hd
      | lo :: hi :: tail =>
        cases (decode_of_i16 hop lo hi tail).symm.trans hd
        exact ⟨encode16 op (pair hi lo), .i16 _ hop, by simp [encode16]⟩
    | unused => cases (decode_of_unused hop bs).symm.trans hd

/-- Settles O1: the encoding spells the instruction, and the decoder reads what is spelled. -/
theorem decodeEncodeRoundTrip : Obligations.DecodeEncodeRoundTrip := fun i rest h => (spelled_encode i h).decode rest

/-- Settles O2: the bytes read spell the instruction, so they are its encoding. -/
theorem decodedBytesReencode : Obligations.DecodedBytesReencode := by
  intro bs i rest hd
  obtain ⟨head, hs, rfl⟩ := spelled_of_decode hd
  obtain ⟨hwf, rfl⟩ := hs.encodes
  exact ⟨hwf, rfl⟩

/-! ### The unassigned first bytes (R110, D8) -/

/-- The ten unassigned bytes and no others have no form. -/
theorem decodeOp_eq_unused_iff (op : Byte) : decodeOp op = .unused ↔ op ∈ unassignedOpcodes :=
  ⟨formOf_of_decodeOp, decodeOp_unassigned op⟩

/-- Two bytes after the first are enough for every assigned first byte. -/
theorem decode_ok_of_assigned {op : Byte} (h : op ∉ unassignedOpcodes) (b2 b3 : Byte) (bs : List Byte) :
    ∃ i rest, decode (op :: b2 :: b3 :: bs) = .ok i rest := by
  cases hop : decodeOp op with
  | r i => exact ⟨_, _, decode_of_r hop _⟩
  | i8 f => exact ⟨_, _, decode_of_i8 hop b2 _⟩
  | i16 f => exact ⟨_, _, decode_of_i16 hop b2 b3 bs⟩
  | unused => exact absurd ((decodeOp_eq_unused_iff op).mp hop) h

/-- A quiet fetch of an unassigned byte from memory. -/
theorem State.fetch_unassigned {t : State} (hq : t.Quiet) (hst : t.stored t.pc) (hop : t.byteAt t.pc ∈ unassignedOpcodes) :
    t.fetch = .unused (t.byteAt t.pc) := by
  simp only [State.fetch, State.opFetch_quiet t hq, State.sample_stored t _ hst, decodeOp_unassigned _ hop]

/-- Settles O4: an unassigned byte has no form, every other has one, and the step refuses what the fetch cannot decode. -/
theorem unassignedBytesRefused : Obligations.UnassignedBytesRefused :=
  ⟨fun op bs h => decode_of_unused (decodeOp_unassigned op h) bs,
    fun _ b2 b3 bs h => decode_ok_of_assigned h b2 b3 bs,
    fun s t hb hq hst hop => step_unused s t _ hb (State.fetch_unassigned hq hst hop)⟩

/-! ### Words of Table 6-1 and lengths (R108, R113) -/

/-- Settles O3: the decoder evaluated on each word. -/
theorem specWordsDecode : Obligations.SpecWordsDecode := by
  unfold Obligations.SpecWordsDecode
  decide

/-- Settles O5: both sides evaluated on each of the 256 first bytes. -/
theorem lengthByFirstByte : Obligations.LengthByFirstByte := by
  unfold Obligations.LengthByFirstByte
  decide

/-! ### What a step runs (R101) -/

/-- Settles O6: the boundary goes on to the fetch, and a quiet fetch from memory gives the instruction at PC. -/
theorem stepRunsDecodedInstruction : Obligations.StepRunsDecodedInstruction := fun s t i hb hq hat =>
  step_run s t _ i hb (State.fetch_quiet t i hq hat)

end Sys2Proof.Machine
end

section
/-! The move, load and store statements (spec/40_move_load_store.md R130 to R142, with LXI SP and SPHL, R156 and R157): each instruction is
one or two shared operations, so its result is theirs and its frame is theirs composed (`After.trans`). -/

namespace Sys2Proof.Machine

/-! ### Forms (R102, R108) -/

theorem hasForm_movRR (dst src : Reg) : HasForm (.movRR dst src) [0x40 + 8 * dst.code + src.code] 4 := by
  cases dst
  all_goals
    cases src
    all_goals exact ⟨rfl, rfl⟩

theorem hasForm_movMR (src : Reg) : HasForm (.movMR src) [0x70 + src.code] 4 := by
  cases src
  all_goals exact ⟨rfl, rfl⟩

theorem hasForm_movRM (dst : Reg) : HasForm (.movRM dst) [0x46 + 8 * dst.code] 4 := by
  cases dst
  all_goals exact ⟨rfl, rfl⟩

theorem hasForm_mviR (dst : Reg) (data : Byte) : HasForm (.mviR dst data) [0x06 + 8 * dst.code, data] 4 := by
  cases dst
  all_goals exact ⟨rfl, rfl⟩

/-- A three-byte instruction has its operand's low byte second and its high byte third (R101). -/
theorem hasForm_pair {i : Instr} {op : Byte} {n : Nat} (hi lo : Byte) (h : encode i = encode16 op (pair hi lo))
    (hn : fetchTStates op = n) : HasForm i [op, lo, hi] n :=
  ⟨by rw [h, encode16, hiByte_pair, loByte_pair], congrArg some hn⟩

/-! ### Loads from memory -/

/-- A register loaded by a quiet read takes the byte read. -/
theorem State.reg_load {s : State} (h : s.Quiet) (x : Word) (r : Reg) :
    ((s.memRead x).2.setReg r (s.memRead x).1).reg r = s.reads x := by
  rw [State.reg_setReg_self, State.memRead_value s x h]

/-- The frame of a register load. -/
theorem After.load {s : State} (h : s.Quiet) (x : Word) (r : Reg) :
    After s ((s.memRead x).2.setReg r (s.memRead x).1) [r] s.sp s.pc s.flags [] [mr x (s.reads x)] := by
  simpa using (After.memRead s x h).trans (After.setReg _ r (s.memRead x).1)

/-- The frame of a load of HL: the low byte's read before the high byte's. -/
theorem After.loadHl {s : State} (h : s.Quiet) (x : Word) :
    After s ((s.memRead16 x).2.setRp .hl (s.memRead16 x).1) [.h, .l] s.sp s.pc s.flags []
      [mr x (s.reads2 x (x + 1)).1, mr (x + 1) (s.reads2 x (x + 1)).2] := by
  simpa using (After.memRead16 s x h).trans (After.setHl _ (s.memRead16 x).1)

/-! ### The statements -/

/-- Settles O34: the state after is the one with the register set. -/
theorem moveToRegister : Obligations.MoveToRegister := fun s =>
  ⟨fun dst src => ⟨hasForm_movRR dst src, _, rfl, s.reg_setReg_self dst _, After.setReg s dst _⟩,
    fun dst data => ⟨hasForm_mviR dst data, _, rfl, s.reg_setReg_self dst data, After.setReg s dst data⟩⟩

/-- Settles O35: a quiet write or a register load at HL of the state before. -/
theorem moveToAndFromMemory : Obligations.MoveToAndFromMemory := fun s hq =>
  ⟨fun src => ⟨hasForm_movMR src, _, rfl, After.memWrite s s.hl (s.reg src) hq⟩,
    fun dst => ⟨hasForm_movRM dst, _, rfl, State.reg_load hq s.hl dst, After.load hq s.hl dst⟩,
    fun data => ⟨⟨rfl, rfl⟩, _, rfl, After.memWrite s s.hl data hq⟩⟩

/-- Settles O36: the pair's halves are the operand's bytes. -/
theorem loadImmediatePairs : Obligations.LoadImmediatePairs := fun s hi lo =>
  ⟨⟨hasForm_pair hi lo rfl rfl, _, rfl, hiByte_pair hi lo, loByte_pair hi lo, After.setBc s _⟩,
    ⟨hasForm_pair hi lo rfl rfl, _, rfl, hiByte_pair hi lo, loByte_pair hi lo, After.setDe s _⟩,
    ⟨hasForm_pair hi lo rfl rfl, _, rfl, hiByte_pair hi lo, loByte_pair hi lo, After.setHl s _⟩,
    ⟨hasForm_pair hi lo rfl rfl, _, rfl, After.setSp s _⟩⟩

/-- Settles O37: a quiet write of A, or a load of A, at the address of each row. -/
theorem accumulatorLoadsAndStores : Obligations.AccumulatorLoadsAndStores := by
  intro s hq
  refine ⟨fun i x op hrow => ?stax, fun addr => ?sta, fun i x op hrow => ?ldax, fun addr => ?lda⟩
  case stax =>
    simp only [List.mem_cons, List.not_mem_nil, or_false, Prod.mk.injEq] at hrow
    obtain ⟨rfl, rfl, rfl⟩ | ⟨rfl, rfl, rfl⟩ := hrow
    all_goals exact ⟨⟨rfl, rfl⟩, _, rfl, After.memWrite s _ s.a hq⟩
  case sta => exact ⟨⟨rfl, rfl⟩, _, rfl, After.memWrite s addr s.a hq⟩
  case ldax =>
    simp only [List.mem_cons, List.not_mem_nil, or_false, Prod.mk.injEq] at hrow
    obtain ⟨rfl, rfl, rfl⟩ | ⟨rfl, rfl, rfl⟩ := hrow
    all_goals exact ⟨⟨rfl, rfl⟩, _, rfl, State.reg_load hq _ .a, After.load hq _ .a⟩
  case lda => exact ⟨⟨rfl, rfl⟩, _, rfl, State.reg_load hq addr .a, After.load hq addr .a⟩

/-- Settles O38: the word written is the pair H, L, and the word read splits into them, its low byte at the address. -/
theorem hlLoadsAndStores : Obligations.HlLoadsAndStores := by
  intro s addr hq
  have hstore := After.memWrite16 s addr (pair s.h s.l) hq
  rw [hiByte_pair, loByte_pair] at hstore
  have hread := State.memRead16_value s addr hq
  refine ⟨⟨⟨rfl, rfl⟩, _, rfl, hstore⟩, ⟨rfl, rfl⟩, _, rfl, ?low, ?high, After.loadHl hq addr⟩
  case low => exact (congrArg loByte hread).trans (loByte_pair _ _)
  case high => exact (congrArg hiByte hread).trans (hiByte_pair _ _)

/-- Settles O39: HL takes the old DE, then DE the old HL; SP takes HL. -/
theorem exchangeAndSphl : Obligations.ExchangeAndSphl := fun s =>
  ⟨⟨⟨rfl, rfl⟩, _, rfl, hiByte_pair s.d s.e, loByte_pair s.d s.e, hiByte_pair s.h s.l, loByte_pair s.h s.l,
      (After.setHl s _).trans (After.setDe _ _)⟩,
    ⟨rfl, rfl⟩, _, rfl, After.setSp s s.hl⟩

end Sys2Proof.Machine
end

section
/-! The stack statements (spec/41_stack_ops.md R150 to R159, with INX and DCX of the register pairs, R209 and R210): each instruction is one
of the stack's shared operations and a write of registers, so its frame is theirs composed. -/

namespace Sys2Proof.Machine

/-! ### Composing frames -/

/-- An operation that leaves SP, PC and the flags alone keeps what the frame before it names. -/
theorem After.trans_keep {s t u : State} {c d : List Reg} {sp pc : Word} {f : Flags} {w w' : List (Word × Byte)}
    {b b' : List BusCycle} (h : After s t c sp pc f w b) (k : After t u d t.sp t.pc t.flags w' b') :
    After s u (d ++ c) sp pc f (w' ++ w) (b ++ b') := by
  rw [h.sp, h.pc, h.flags] at k
  exact h.trans k

/-! ### Pushes (R150, R152) -/

/-- The five flags stand in bits 7, 6, 4, 2 and 0 of the flag byte, whatever its x bits are (R29). -/
theorem Flags.toByte_bits (f : Flags) (x : Byte) :
    (f.toByte x).getLsbD 7 = f.s ∧ (f.toByte x).getLsbD 6 = f.z ∧ (f.toByte x).getLsbD 4 = f.ac ∧
      (f.toByte x).getLsbD 2 = f.p ∧ (f.toByte x).getLsbD 0 = f.cy := by
  obtain ⟨h7, h6, -, h4, -, h2, -, h0⟩ :=
    byteOfBits_bits f.s f.z (x.getLsbD 5) f.ac (x.getLsbD 3) f.p (x.getLsbD 1) f.cy
  exact ⟨h7, h6, h4, h2, h0⟩

/-- The frame of a quiet push of two bytes. -/
theorem After.pushPair {s : State} (h : s.Quiet) (hi lo : Byte) :
    After s (s.push16 (pair hi lo)) [] (s.sp - 2) s.pc s.flags [(s.sp - 2, lo), (s.sp - 1, hi)]
      [mw (s.sp - 1) hi, mw (s.sp - 2) lo] := by
  simpa using After.push16 s (pair hi lo) h

/-! ### The two bytes at SP (R150) -/

section
variable {s : State} {lo hi : Byte} (hq : s.Quiet) (hr : (lo, hi) = s.reads2 s.sp (s.sp + 1))
include hq hr

/-- The word of a quiet read at SP: the first byte read is its low byte. -/
theorem State.memRead16_top : (s.memRead16 s.sp).1 = pair hi lo := by
  rw [State.memRead16_value s s.sp hq, ← hr]

/-- The frame of a quiet read of the two bytes at SP. -/
theorem After.memRead16_top :
    After s (s.memRead16 s.sp).2 [] s.sp s.pc s.flags [] [mr s.sp lo, mr (s.sp + 1) hi] := by
  have hread := After.memRead16 s s.sp hq
  rwa [← hr] at hread

/-- The frame of a quiet pop. -/
theorem After.pop16_top : After s s.pop16.2 [] (s.sp + 2) s.pc s.flags [] [mr s.sp lo, mr (s.sp + 1) hi] := by
  have hpop := After.pop16 s hq
  rwa [← hr] at hpop

end

/-! ### Pairs (R209, R210) -/

/-- The two halves written by a decrement make the word with -1 added, the form of O43's table. -/
theorem pair_hi_lo_sub_one (w : Word) : pair (hiByte (w - 1)) (loByte (w - 1)) = w + -1 := by
  rw [pair_hi_lo, sub_eq_add_neg]

/-! ### The statements -/

/-- Settles O40: a push of the pair, and for PUSH PSW of A and a flag byte whose x bits are drawn before. -/
theorem pushes : Obligations.Pushes := by
  intro s hq
  refine ⟨fun i op hi lo hrow => ?pair, ⟨rfl, rfl⟩, _, s.flags.toByte s.draw.1, rfl, ?psw⟩
  case pair =>
    simp only [List.mem_cons, List.not_mem_nil, or_false, Prod.mk.injEq] at hrow
    obtain ⟨rfl, rfl, rfl, rfl⟩ | ⟨rfl, rfl, rfl, rfl⟩ | ⟨rfl, rfl, rfl, rfl⟩ := hrow
    all_goals exact ⟨⟨rfl, rfl⟩, _, rfl, After.pushPair hq _ _⟩
  case psw =>
    obtain ⟨hs, hz, hac, hp, hcy⟩ := s.flags.toByte_bits s.draw.1
    exact ⟨hs, hz, hac, hp, hcy, (After.draw s).trans (After.pushPair hq.draw s.a _)⟩

/-- Settles O41: the word popped splits into the bytes read, and writing them to registers keeps the pop's SP. -/
theorem pops : Obligations.Pops := by
  intro s lo hi hq hr
  have hpop := After.pop16_top hq hr
  have hword : s.pop16.1 = pair hi lo := State.memRead16_top hq hr
  have hhigh : hiByte s.pop16.1 = hi := by rw [hword, hiByte_pair]
  have hlow : loByte s.pop16.1 = lo := by rw [hword, loByte_pair]
  refine ⟨⟨⟨rfl, rfl⟩, _, rfl, hhigh, hlow, hpop.trans_keep (After.setBc _ _)⟩,
    ⟨⟨rfl, rfl⟩, _, rfl, hhigh, hlow, hpop.trans_keep (After.setDe _ _)⟩,
    ⟨⟨rfl, rfl⟩, _, rfl, hhigh, hlow, hpop.trans_keep (After.setHl _ _)⟩, ⟨rfl, rfl⟩, _, rfl, hhigh, ?psw⟩
  have hload := hpop.trans_keep (After.setReg _ .a (hiByte s.pop16.1))
  have hflags := After.setFlags (s.pop16.2.setReg .a (hiByte s.pop16.1)) (Flags.ofByte lo)
  rw [hload.sp, hload.pc] at hflags
  rw [hlow]
  exact hload.trans hflags

/-- Settles O42: the two reads, the two writes of the old H and L, then HL takes the word read. -/
theorem exchangeTopOfStack : Obligations.ExchangeTopOfStack := by
  intro s lo hi hq hr
  have hword := State.memRead16_top hq hr
  have hquiet : (s.memRead16 s.sp).2.Quiet := (hq.memRead s.sp).memRead (s.sp + 1)
  have hreads := After.memRead16_top hq hr
  have hhigh := hreads.trans_keep (After.memWrite _ (s.sp + 1) s.h hquiet)
  have hwrites := hhigh.trans_keep (After.memWrite _ s.sp s.l (hquiet.memWrite (s.sp + 1) s.h))
  exact ⟨⟨rfl, rfl⟩, _, rfl, (congrArg hiByte hword).trans (hiByte_pair hi lo),
    (congrArg loByte hword).trans (loByte_pair hi lo), hwrites.trans_keep (After.setHl _ _)⟩

/-- Settles O43: the halves written are those of the pair one more, or one less, which is adding -1. -/
theorem pairIncrements : Obligations.PairIncrements := by
  intro s
  refine ⟨fun i op delta hrow => ?bc, fun i op delta hrow => ?de, fun i op delta hrow => ?hl,
    ⟨⟨rfl, rfl⟩, _, rfl, After.setSp s _⟩, ⟨rfl, rfl⟩, _, rfl, After.setSp s _⟩
  all_goals simp only [List.mem_cons, List.not_mem_nil, or_false, Prod.mk.injEq] at hrow
  case bc =>
    obtain ⟨rfl, rfl, rfl⟩ | ⟨rfl, rfl, rfl⟩ := hrow
    · exact ⟨⟨rfl, rfl⟩, _, rfl, pair_hi_lo _, After.setBc s _⟩
    · exact ⟨⟨rfl, rfl⟩, _, rfl, pair_hi_lo_sub_one _, After.setBc s _⟩
  case de =>
    obtain ⟨rfl, rfl, rfl⟩ | ⟨rfl, rfl, rfl⟩ := hrow
    · exact ⟨⟨rfl, rfl⟩, _, rfl, pair_hi_lo _, After.setDe s _⟩
    · exact ⟨⟨rfl, rfl⟩, _, rfl, pair_hi_lo_sub_one _, After.setDe s _⟩
  case hl =>
    obtain ⟨rfl, rfl, rfl⟩ | ⟨rfl, rfl, rfl⟩ := hrow
    · exact ⟨⟨rfl, rfl⟩, _, rfl, pair_hi_lo _, After.setHl s _⟩
    · exact ⟨⟨rfl, rfl⟩, _, rfl, pair_hi_lo_sub_one _, After.setHl s _⟩

end Sys2Proof.Machine
end

section
/-! The control transfer statements (spec/42_jump_call_return_restart.md R166 to R194): a conditional instruction's condition is the
one its opcode's bits 5 to 3 name (R105), so each table reduces to one frame per conditional operation. -/

namespace Sys2Proof.Machine

/-! ### Conditions (R105, R165) -/

/-- In the columns of the conditional jumps and calls byte 3 is skipped exactly when the opcode's condition is false. -/
theorem skipsThird_eq_not_condHolds {op : Byte} {f : Flags} (hg : opGroup op = 3) (hl : opLow op = 2 ∨ opLow op = 4) :
    skipsThird op f = !condHolds f (Cond.ofCode (opMid op)) := by
  simp [skipsThird, hg, hl]

/-! ### Frames of the conditional operations -/

/-- The frame of a conditional jump: PC alone, and only if the condition holds. -/
theorem After.jumpIf (s : State) (cc : Cond) (x : Word) :
    After s (s.jumpIf cc x) [] s.sp (if condHolds s.flags cc then x else s.pc) s.flags [] [] := by
  unfold State.jumpIf
  split
  · exact After.setPc s x
  · exact After.refl s

/-- The frame of a quiet conditional call: a call's, or none. -/
theorem After.callIf {s : State} (h : s.Quiet) (cc : Cond) (x : Word) :
    if condHolds s.flags cc then
      After s (s.callIf cc x) [] (s.sp - 2) x s.flags [(s.sp - 2, loByte s.pc), (s.sp - 1, hiByte s.pc)]
        [mw (s.sp - 1) (hiByte s.pc), mw (s.sp - 2) (loByte s.pc)]
    else After s (s.callIf cc x) [] s.sp s.pc s.flags [] [] := by
  unfold State.callIf
  split
  · exact After.callTo s x h
  · exact After.refl s

section
variable {s : State} {lo hi : Byte} (hq : s.Quiet) (hr : (lo, hi) = s.reads2 s.sp (s.sp + 1))
include hq hr

/-- The frame of a quiet return to the address whose two bytes stand at SP. -/
theorem After.returnFrom_top :
    After s s.returnFrom [] (s.sp + 2) (pair hi lo) s.flags [] [mr s.sp lo, mr (s.sp + 1) hi] := by
  have hret := After.returnFrom s hq
  rwa [← hr] at hret

/-- The frame of a quiet conditional return: a return's, or none. -/
theorem After.returnIf_top (cc : Cond) :
    if condHolds s.flags cc then
      After s (s.returnIf cc) [] (s.sp + 2) (pair hi lo) s.flags [] [mr s.sp lo, mr (s.sp + 1) hi]
    else After s (s.returnIf cc) [] s.sp s.pc s.flags [] [] := by
  unfold State.returnIf
  split
  · exact After.returnFrom_top hq hr
  · exact After.refl s

end

/-! ### Restarts (R106, R194) -/

theorem hasForm_rst {n : Nat} (h : n < 8) : HasForm (.rst n) [BitVec.ofNat 8 (0xC7 + 8 * n)] 6 := by
  interval_cases n
  all_goals exact ⟨rfl, rfl⟩

/-- The restart address does not wrap. -/
theorem restartVector_toNat {n : Nat} (h : n < 8) : (restartVector n).toNat = 8 * n := by
  rw [restartVector, BitVec.toNat_ofNat, Nat.mod_eq_of_lt (by omega)]

/-! ### The statements -/

/-- Settles O44: JMP and PCHL write PC; each conditional row is `State.jumpIf` of its opcode's condition. -/
theorem jumps : Obligations.Jumps := by
  intro s addr
  refine ⟨⟨⟨rfl, rfl⟩, _, rfl, After.setPc s addr⟩, ⟨⟨rfl, rfl⟩, _, rfl, After.setPc s s.hl⟩, fun i op taken hrow => ?_⟩
  have hopcode : HasForm i [op, loByte addr, hiByte addr] 4 ∧ opGroup op = 3 ∧ opLow op = 2 ∧
      taken = condHolds s.flags (Cond.ofCode (opMid op)) ∧ exec i s = .next (s.jumpIf (Cond.ofCode (opMid op)) addr) := by
    simp only [List.mem_cons, List.not_mem_nil, or_false, Prod.mk.injEq] at hrow
    obtain ⟨rfl, rfl, rfl⟩ | ⟨rfl, rfl, rfl⟩ | ⟨rfl, rfl, rfl⟩ | ⟨rfl, rfl, rfl⟩ | ⟨rfl, rfl, rfl⟩ | ⟨rfl, rfl, rfl⟩ |
      ⟨rfl, rfl, rfl⟩ | ⟨rfl, rfl, rfl⟩ := hrow
    all_goals exact ⟨⟨rfl, rfl⟩, rfl, rfl, rfl, rfl⟩
  obtain ⟨hform, hgroup, hlow, rfl, hexec⟩ := hopcode
  exact ⟨hform, skipsThird_eq_not_condHolds hgroup (.inl hlow), _, hexec, After.jumpIf s _ addr⟩

/-- Settles O45: CALL is `State.callTo`; each conditional row is `State.callIf` of its opcode's condition. -/
theorem calls : Obligations.Calls := by
  intro s addr i op taken hq hrow
  obtain hrow | hrow := List.mem_cons.mp hrow
  · cases hrow
    exact ⟨⟨rfl, rfl⟩, rfl, _, rfl, After.callTo s addr hq⟩
  have hopcode : HasForm i [op, loByte addr, hiByte addr] 6 ∧ opGroup op = 3 ∧ opLow op = 4 ∧
      taken = condHolds s.flags (Cond.ofCode (opMid op)) ∧ exec i s = .next (s.callIf (Cond.ofCode (opMid op)) addr) := by
    simp only [List.mem_cons, List.not_mem_nil, or_false, Prod.mk.injEq] at hrow
    obtain ⟨rfl, rfl, rfl⟩ | ⟨rfl, rfl, rfl⟩ | ⟨rfl, rfl, rfl⟩ | ⟨rfl, rfl, rfl⟩ | ⟨rfl, rfl, rfl⟩ | ⟨rfl, rfl, rfl⟩ |
      ⟨rfl, rfl, rfl⟩ | ⟨rfl, rfl, rfl⟩ := hrow
    all_goals exact ⟨⟨rfl, rfl⟩, rfl, rfl, rfl, rfl⟩
  obtain ⟨hform, hgroup, hlow, rfl, hexec⟩ := hopcode
  exact ⟨hform, skipsThird_eq_not_condHolds hgroup (.inr hlow), _, hexec, After.callIf hq _ addr⟩

/-- Settles O46: RET is `State.returnFrom`; each conditional row is `State.returnIf` of its opcode's condition. -/
theorem returns : Obligations.Returns := by
  intro s lo hi i op fetchT taken hq hr hrow
  obtain hrow | hrow := List.mem_cons.mp hrow
  · cases hrow
    exact ⟨⟨rfl, rfl⟩, _, rfl, After.returnFrom_top hq hr⟩
  have hopcode : HasForm i [op] fetchT ∧ taken = condHolds s.flags (Cond.ofCode (opMid op)) ∧
      exec i s = .next (s.returnIf (Cond.ofCode (opMid op))) := by
    simp only [List.mem_cons, List.not_mem_nil, or_false, Prod.mk.injEq] at hrow
    obtain ⟨rfl, rfl, rfl, rfl⟩ | ⟨rfl, rfl, rfl, rfl⟩ | ⟨rfl, rfl, rfl, rfl⟩ | ⟨rfl, rfl, rfl, rfl⟩ |
      ⟨rfl, rfl, rfl, rfl⟩ | ⟨rfl, rfl, rfl, rfl⟩ | ⟨rfl, rfl, rfl, rfl⟩ | ⟨rfl, rfl, rfl, rfl⟩ := hrow
    all_goals exact ⟨⟨rfl, rfl⟩, rfl, rfl⟩
  obtain ⟨hform, rfl, hexec⟩ := hopcode
  exact ⟨hform, _, hexec, After.returnIf_top hq hr _⟩

/-- Settles O47: a call of the restart address, which is below 64 and so 8 n as a number. -/
theorem restarts : Obligations.Restarts := fun s n hq hn =>
  ⟨hasForm_rst hn, _, rfl, restartVector_toNat hn, After.callTo s (restartVector n) hq⟩

end Sys2Proof.Machine
end

section
/-! The input and output statement (spec/43_input_output.md R200 and R201): IN is an I/O read and a write of A, OUT is an I/O write. -/

namespace Sys2Proof.Machine

/-- The byte of a quiet I/O read is the device's answer where one is to come (R200). -/
theorem State.ioRead_of_ioIn {s : State} {w : Byte} {rest : List Byte} (h : s.Quiet) (port : Byte)
    (hans : s.env.ioIn = w :: rest) : (s.ioRead port).1 = w := by
  rw [State.ioRead_quiet s port h, Env.ioAnswer, hans]

/-- The frame of a quiet I/O read into A: the read's, and A is written. -/
theorem After.ioLoad {s : State} (h : s.Quiet) (port : Byte) :
    After s ((s.ioRead port).2.setReg .a (s.ioRead port).1) [.a] s.sp s.pc s.flags []
      [⟨.ioRead, some (pair port port), some (s.ioRead port).1, 3, 0⟩] :=
  (After.ioRead s port h).trans_keep (After.setReg _ .a (s.ioRead port).1)

/-- Settles O48: IN loads A with the byte of its I/O read, OUT writes A. -/
theorem inputAndOutput : Obligations.InputAndOutput := fun s port hq =>
  ⟨⟨⟨rfl, rfl⟩, _, (s.ioRead port).1, rfl, State.reg_setReg_self _ .a _,
      fun _ _ hans => State.ioRead_of_ioIn hq port hans, After.ioLoad hq port⟩,
    ⟨rfl, rfl⟩, _, rfl, After.ioWrite s port s.a hq⟩

end Sys2Proof.Machine
end

section
/-! The increment and decrement statement (spec/44_increment_decrement.md R205 to R208): INR is `add8` with 1 and DCR is `sub8` with 1,
and each writes its result to the operand, then every flag but CY. -/

namespace Sys2Proof.Machine

/-! ### Forms (R103, R108) -/

theorem hasForm_inrR (dst : Reg) : HasForm (.inrR dst) [0x04 + 8 * dst.code] 4 := by
  cases dst
  all_goals exact ⟨rfl, rfl⟩

theorem hasForm_dcrR (dst : Reg) : HasForm (.dcrR dst) [0x05 + 8 * dst.code] 4 := by
  cases dst
  all_goals exact ⟨rfl, rfl⟩

/-! ### One more, one less (R9) -/

/-- Adding 1 carries out of bit 3 only from a low half FH (R205). -/
theorem add8_one_ac (x : Byte) : (add8 x 1 false).ac = decide (x.toNat % 16 = 15) := by
  rw [(add8_exact x 1 false).2, decide_eq_decide]
  have hone : (1 : Byte).toNat = 1 := rfl
  rw [hone, Bool.toNat_false]
  omega

theorem sub8_one_res (x : Byte) : (sub8 x 1 false).res = x - 1 := by
  rw [sub8_res, Bool.toNat_false, BitVec.sub_zero]

/-- Subtracting 1 borrows from bit 4 only at a low half 0H (R206). -/
theorem sub8_one_ac (x : Byte) : (sub8 x 1 false).ac = decide (x.toNat % 16 ≠ 0) := by
  rw [(sub8_exact x 1 false).2, decide_eq_decide]
  have hone : (1 : Byte).toNat = 1 := rfl
  rw [hone, Bool.toNat_false]
  omega

/-! ### Frames -/

theorem Flags.ofStep_eq_resultFlags (f : Flags) (r : AluOut) : f.ofStep r = resultFlags r.res r.ac f.cy := by
  simp only [Flags.ofStep, Flags.setSZP, resultFlags, beq_eq_decide]

/-- Flags written after an operation replace those its frame names. -/
theorem After.trans_setFlags {s t : State} {c : List Reg} {sp pc : Word} {f : Flags} {w : List (Word × Byte)}
    {b : List BusCycle} (h : After s t c sp pc f w b) (g : Flags) : After s (t.setFlags g) c sp pc g w b := by
  have hset := After.setFlags t g
  rw [h.sp, h.pc] at hset
  simpa using h.trans hset

/-- The frame of a result to a register and S, Z, AC and P from it. -/
theorem After.stepReg (s : State) (dst : Reg) (r : AluOut) :
    After s ((s.setReg dst r.res).setFlags (s.flags.ofStep r)) [dst] s.sp s.pc (resultFlags r.res r.ac s.flags.cy) [] [] := by
  rw [Flags.ofStep_eq_resultFlags]
  exact (After.setReg s dst r.res).trans_setFlags _

/-- The frame of a quiet read of M, a result to M and S, Z, AC and P from it: the write is at the HL the read was at. -/
theorem After.stepM {s : State} (h : s.Quiet) (r : AluOut) :
    After s ((s.readM.2.writeM r.res).setFlags (s.flags.ofStep r)) [] s.sp s.pc (resultFlags r.res r.ac s.flags.cy)
      [(s.hl, r.res)] [mr s.hl (s.reads s.hl), mw s.hl r.res] := by
  have hread := After.memRead s s.hl h
  have hhl : s.readM.2.hl = s.hl := s.hl_memRead s.hl
  rw [Flags.ofStep_eq_resultFlags, State.writeM, hhl]
  exact (hread.trans_keep (After.memWrite _ s.hl r.res (h.memRead s.hl))).trans_setFlags _

/-! ### The statement -/

/-- Settles O49: both forms of INR write `add8` with 1 and its flags, both forms of DCR `sub8` with 1. -/
theorem incrementsAndDecrements : Obligations.IncrementsAndDecrements := by
  intro s
  refine ⟨fun dst => ⟨hasForm_inrR dst, _, rfl, ?inrResult, ?inrFrame⟩,
    fun dst => ⟨hasForm_dcrR dst, _, rfl, ?dcrResult, ?dcrFrame⟩, ?memory⟩
  case inrResult => exact (State.reg_setReg_self s dst _).trans (add8_one_res _)
  case inrFrame =>
    rw [← add8_one_res, ← add8_one_ac]
    exact After.stepReg s dst _
  case dcrResult => exact (State.reg_setReg_self s dst _).trans (sub8_one_res _)
  case dcrFrame =>
    rw [← sub8_one_res, ← sub8_one_ac]
    exact After.stepReg s dst _
  case memory =>
    rintro x v hq rfl rfl
    have hread : s.readM.1 = s.reads s.hl := State.memRead_value s s.hl hq
    refine ⟨⟨⟨rfl, rfl⟩, _, rfl, ?inr⟩, ⟨rfl, rfl⟩, _, rfl, ?dcr⟩
    case inr =>
      rw [hread, ← add8_one_res, ← add8_one_ac]
      exact After.stepM hq _
    case dcr =>
      rw [hread, ← sub8_one_res, ← sub8_one_ac]
      exact After.stepM hq _

end Sys2Proof.Machine
end

section
/-! The add and subtract statements (spec/45_add_subtract.md R215 to R227): every form of the 8-bit groups reads an operand, then puts
`add8` or `sub8` of A and the operand in A and in all five flags; DAD is a 17-bit sum of HL and a pair after two idle cycles. -/

namespace Sys2Proof.Machine

/-! ### Forms (R103, R108) -/

/-- The register forms of the eight accumulator operations have the source in bits 2 to 0 and fetch in four T states. -/
theorem withFields_source {base : Byte} (hb : base ∈ [0x80, 0x88, 0x90, 0x98, 0xA0, 0xA8, 0xB0, 0xB8]) (src : Reg) :
    withFields base 0 src.code = base + src.code ∧ fetchTStates (base + src.code) = 4 := by
  revert base
  cases src
  all_goals decide

theorem hasForm_source {i : Instr} {base : Byte} {src : Reg} (h : encode i = [withFields base 0 src.code])
    (hb : base ∈ [0x80, 0x88, 0x90, 0x98, 0xA0, 0xA8, 0xB0, 0xB8]) : HasForm i [base + src.code] 4 := by
  obtain ⟨hbyte, hfetch⟩ := withFields_source hb src
  exact ⟨by rw [h, hbyte], congrArg some hfetch⟩

/-! ### The sum (R9) -/

/-- The result of `add8` is the sum modulo 256. -/
theorem add8_res (x y : Byte) (c : Bool) : (add8 x y c).res = BitVec.ofNat 8 (x.toNat + y.toNat + c.toNat) := by
  obtain ⟨hsum, -⟩ := add8_exact x y c
  have hres := (add8 x y c).res.isLt
  apply BitVec.eq_of_toNat_eq
  rw [BitVec.toNat_ofNat]
  omega

/-- CY after `add8` is the carry out of bit 7. -/
theorem add8_cy (x y : Byte) (c : Bool) : (add8 x y c).cy = decide (256 ≤ x.toNat + y.toNat + c.toNat) := by
  obtain ⟨hsum, -⟩ := add8_exact x y c
  have hres := (add8 x y c).res.isLt
  cases hcy : (add8 x y c).cy <;> simp only [hcy, Bool.toNat_true, Bool.toNat_false] at hsum
  · exact (decide_eq_false (by omega)).symm
  · exact (decide_eq_true (by omega)).symm

/-! ### Flags of a sum or difference (R31) -/

theorem Flags.ofAlu_eq_resultFlags (f : Flags) (r : AluOut) : f.ofAlu r = resultFlags r.res r.ac r.cy := by
  simp only [Flags.ofAlu, Flags.setSZP, resultFlags, beq_eq_decide]

theorem resultFlags_sub8 (x y : Byte) (c : Bool) :
    resultFlags (sub8 x y c).res (sub8 x y c).ac (sub8 x y c).cy = differenceFlags x y c := by
  rw [differenceFlags, sub8_res, sub8_cy, (sub8_exact x y c).2]

/-! ### An operand, then a result to A -/

/-- Operand M in a quiet state: the byte `readM` returns is the one at HL, by one memory read. -/
theorem After.readM_operand {s : State} {x : Word} {v : Byte} (hq : s.Quiet) (hx : x = pair s.h s.l) (hv : v = s.reads x) :
    v = s.readM.1 ∧ After s s.readM.2 [] s.sp s.pc s.flags [] [mr x v] := by
  subst hx hv
  exact ⟨(State.memRead_value s _ hq).symm, After.memRead s _ hq⟩

section
variable {i : Instr} {bytes : List Byte} {s t : State} {cycles : List BusCycle}

/-- The frame of a result to A after the operand's read. -/
theorem After.operand_aluToA (ht : After s t [] s.sp s.pc s.flags [] cycles) (r : AluOut) :
    After s (t.aluToA r) [.a] s.sp s.pc (resultFlags r.res r.ac r.cy) [] cycles := by
  have halu := After.aluToA t r
  rw [ht.sp, ht.pc, Flags.ofAlu_eq_resultFlags] at halu
  simpa using ht.trans halu

/-- The operand's read leaves A as it was. -/
theorem After.operand_a (ht : After s t [] s.sp s.pc s.flags [] cycles) : t.a = s.a := ht.regs .a List.not_mem_nil

/-- An instruction that reads its operand by a frame of its own, then adds it to A. -/
theorem AddsToA.of_operand {v : Byte} {cin : Bool} (hform : HasForm i bytes 4) (hexec : exec i s = .next (t.addToA v cin))
    (ht : After s t [] s.sp s.pc s.flags [] cycles) : AddsToA i bytes s v cin cycles := by
  rw [State.addToA, ht.operand_a] at hexec
  have hframe := ht.operand_aluToA (add8 s.a v cin)
  rw [(add8_exact s.a v cin).2, add8_cy] at hframe
  exact ⟨hform, _, hexec, add8_res s.a v cin, hframe⟩

/-- An instruction that reads its operand by a frame of its own, then subtracts it from A. -/
theorem SubtractsFromA.of_operand {v : Byte} {bin : Bool} (hform : HasForm i bytes 4)
    (hexec : exec i s = .next (t.subFromA v bin)) (ht : After s t [] s.sp s.pc s.flags [] cycles) :
    SubtractsFromA i bytes s v bin cycles := by
  rw [State.subFromA, ht.operand_a] at hexec
  have hframe := ht.operand_aluToA (sub8 s.a v bin)
  rw [resultFlags_sub8] at hframe
  exact ⟨hform, _, hexec, sub8_res s.a v bin, hframe⟩

end

/-! ### DAD (R221) -/

/-- The 17-bit sum holds the sum modulo 65536 in bits 15 to 0 and its carry in bit 16. -/
theorem sum17_exact (x y : Word) :
    ((x.setWidth 17 + y.setWidth 17).setWidth 16).toNat = (x.toNat + y.toNat) % 65536 ∧
    (x.setWidth 17 + y.setWidth 17).getLsbD 16 = decide (65536 ≤ x.toNat + y.toNat) := by
  have hx := x.isLt
  have hy := y.isLt
  constructor
  · simp only [BitVec.toNat_setWidth, BitVec.toNat_add]
    omega
  · simp only [BitVec.getLsbD, BitVec.toNat_setWidth, BitVec.toNat_add, Nat.testBit_eq_decide_div_mod_eq, decide_eq_decide]
    omega

theorem State.toNat_hl_dad (s : State) (p : RegPair) : (s.dad p).hl.toNat = (s.hl.toNat + (s.rp p).toNat) % 65536 := by
  rw [← (sum17_exact s.hl (s.rp p)).1]
  exact congrArg BitVec.toNat (pair_hi_lo _)

/-- The frame of DAD: two idle cycles, the halves of HL, then CY alone of the flags. -/
theorem After.dad (s : State) (p : RegPair) :
    After s (s.dad p) [.h, .l] s.sp s.pc { s.flags with cy := decide (65536 ≤ s.hl.toNat + (s.rp p).toNat) } []
      [⟨.idleDad, none, none, 3, 0⟩, ⟨.idleDad, none, none, 3, 0⟩] := by
  have hidle := (After.idle s .idleDad 3).trans_keep (After.idle _ .idleDad 3)
  rw [← (sum17_exact s.hl (s.rp p)).2]
  exact (hidle.trans_keep (After.setHl _ _)).trans_setFlags _

/-! ### The statements -/

/-- Settles O50: a register or immediate operand needs no read and M one quiet read; each form then puts `add8` in A. -/
theorem additions : Obligations.Additions := by
  intro s
  refine ⟨fun src => ⟨?add, ?adc⟩, fun data => ⟨?adi, ?aci⟩, ?memory⟩
  case add | adc => exact .of_operand (hasForm_source rfl (by decide)) rfl (After.refl s)
  case adi | aci => exact .of_operand ⟨rfl, rfl⟩ rfl (After.refl s)
  case memory =>
    intro x v hq hx hv
    obtain ⟨rfl, hread⟩ := After.readM_operand hq hx hv
    exact ⟨.of_operand ⟨rfl, rfl⟩ rfl hread, .of_operand ⟨rfl, rfl⟩ rfl hread⟩

/-- Settles O51: the operands of O50, each form then putting `sub8` in A. -/
theorem subtractions : Obligations.Subtractions := by
  intro s
  refine ⟨fun src => ⟨?sub, ?sbb⟩, fun data => ⟨?sui, ?sbi⟩, ?memory⟩
  case sub | sbb => exact .of_operand (hasForm_source rfl (by decide)) rfl (After.refl s)
  case sui | sbi => exact .of_operand ⟨rfl, rfl⟩ rfl (After.refl s)
  case memory =>
    intro x v hq hx hv
    obtain ⟨rfl, hread⟩ := After.readM_operand hq hx hv
    exact ⟨.of_operand ⟨rfl, rfl⟩ rfl hread, .of_operand ⟨rfl, rfl⟩ rfl hread⟩

/-- Settles O52: one operation for the four pairs, with its 17-bit sum and its frame. -/
theorem doubleAdds : Obligations.DoubleAdds := by
  intro s i op w hrow
  simp only [List.mem_cons, List.not_mem_nil, or_false, Prod.mk.injEq] at hrow
  obtain ⟨rfl, rfl, rfl⟩ | ⟨rfl, rfl, rfl⟩ | ⟨rfl, rfl, rfl⟩ | ⟨rfl, rfl, rfl⟩ := hrow
  · exact ⟨⟨rfl, rfl⟩, _, rfl, s.toNat_hl_dad .bc, After.dad s .bc⟩
  · exact ⟨⟨rfl, rfl⟩, _, rfl, s.toNat_hl_dad .de, After.dad s .de⟩
  · exact ⟨⟨rfl, rfl⟩, _, rfl, s.toNat_hl_dad .hl, After.dad s .hl⟩
  · exact ⟨⟨rfl, rfl⟩, _, rfl, s.toNat_hl_dad .sp, After.dad s .sp⟩

end Sys2Proof.Machine
end

section
/-! The logical, rotate and special statements (spec/46_logical_rotate_specials.md R235 to R254): the logical instructions and the
compares read an operand as the sums of R215 do; a rotate moves the 7 bits that stay and takes one in; DAA is `add8` with a
correction, and the correction turns the binary carries of a sum of packed BCD bytes into the decimal ones. -/

namespace Sys2Proof.Machine

/-! ### Logical operations and compares (R235 to R246) -/

theorem Flags.ofLogic_eq_resultFlags (f : Flags) (v : Byte) (ac : Bool) : f.ofLogic v ac = resultFlags v ac false := by
  simp only [Flags.ofLogic, Flags.setSZP, resultFlags, beq_eq_decide]

/-- The statement's AC after AND is the model's (R235, D15). -/
theorem acAfterAnd_eq_andAc (s : State) (v : Byte) : acAfterAnd s v = andAc s.anaAc s.a v := by
  unfold acAfterAnd andAc
  cases s.anaAc <;> rfl

section
variable {i : Instr} {bytes : List Byte} {s t : State} {cycles : List BusCycle} {v : Byte}

/-- The operand's read leaves the parameter ANA_AC_MODE as it was. -/
theorem After.operand_anaAc (ht : After s t [] s.sp s.pc s.flags [] cycles) : t.anaAc = s.anaAc := by
  obtain ⟨-, -, -, -, -, -, -, -, -, -, -, -, -, -, hmode, -⟩ := ht.control
  exact hmode

/-- An instruction that reads its operand by a frame of its own, then puts a logical result in A. -/
theorem LogicToA.of_result {ac : Bool} (hform : HasForm i bytes 4) (hexec : exec i s = .next (t.logicToA v ac))
    (ht : After s t [] s.sp s.pc s.flags [] cycles) : LogicToA i bytes s v ac cycles := by
  have hlogic := After.logicToA t v ac
  rw [ht.sp, ht.pc, Flags.ofLogic_eq_resultFlags] at hlogic
  exact ⟨hform, _, hexec, rfl, by simpa using ht.trans hlogic⟩

theorem LogicToA.of_and (hform : HasForm i bytes 4) (hexec : exec i s = .next (t.andToA v))
    (ht : After s t [] s.sp s.pc s.flags [] cycles) : LogicToA i bytes s (s.a &&& v) (acAfterAnd s v) cycles := by
  rw [State.andToA, ht.operand_a, ht.operand_anaAc, ← acAfterAnd_eq_andAc] at hexec
  exact .of_result hform hexec ht

theorem LogicToA.of_xor (hform : HasForm i bytes 4) (hexec : exec i s = .next (t.xorToA v))
    (ht : After s t [] s.sp s.pc s.flags [] cycles) : LogicToA i bytes s (s.a ^^^ v) false cycles := by
  rw [State.xorToA, ht.operand_a] at hexec
  exact .of_result hform hexec ht

theorem LogicToA.of_or (hform : HasForm i bytes 4) (hexec : exec i s = .next (t.orToA v))
    (ht : After s t [] s.sp s.pc s.flags [] cycles) : LogicToA i bytes s (s.a ||| v) false cycles := by
  rw [State.orToA, ht.operand_a] at hexec
  exact .of_result hform hexec ht

/-- The frame of a compare after the operand's read: the flags alone, those of the difference. -/
theorem After.operand_compare (ht : After s t [] s.sp s.pc s.flags [] cycles) (v : Byte) :
    After s (t.compare v) [] s.sp s.pc (differenceFlags s.a v false) [] cycles := by
  rw [State.compare, Flags.ofAlu_eq_resultFlags, resultFlags_sub8, ht.operand_a]
  exact ht.trans_setFlags _

end

/-! ### Rotates (R247 to R250) -/

/-- A bit taken in at the low end: the byte doubled without its bit 7, and the bit. -/
theorem toNat_append_bit (x : Byte) (b : BitVec 1) :
    (x.extractLsb' 0 7 ++ b : Byte).toNat = 2 * x.toNat % 256 + b.toNat := by
  have hb := b.isLt
  rw [BitVec.toNat_append, ← Nat.shiftLeft_add_eq_or_of_lt hb, Nat.shiftLeft_eq, BitVec.extractLsb'_toNat,
    Nat.shiftRight_zero]
  omega

/-- A bit taken in at the high end: the byte halved without its bit 0, and the bit as bit 7. -/
theorem toNat_bit_append (x : Byte) (b : BitVec 1) :
    (b ++ x.extractLsb' 1 7 : Byte).toNat = x.toNat / 2 + 128 * b.toNat := by
  have hx := x.isLt
  rw [BitVec.toNat_append, ← Nat.shiftLeft_add_eq_or_of_lt (x.extractLsb' 1 7).isLt, Nat.shiftLeft_eq,
    BitVec.extractLsb'_toNat, Nat.shiftRight_eq_div_pow]
  omega

theorem toNat_bit7 (x : Byte) : (x.extractLsb' 7 1).toNat = x.toNat / 128 := by
  have hx := x.isLt
  rw [BitVec.extractLsb'_toNat, Nat.shiftRight_eq_div_pow]
  omega

theorem toNat_bit0 (x : Byte) : (x.extractLsb' 0 1).toNat = x.toNat % 2 := by
  rw [BitVec.extractLsb'_toNat, Nat.shiftRight_zero]

theorem getLsbD_seven (x : Byte) : x.getLsbD 7 = decide (128 ≤ x.toNat) := by
  have hx := x.isLt
  rw [BitVec.getLsbD, Nat.testBit_eq_decide_div_mod_eq, decide_eq_decide]
  omega

theorem getLsbD_zero (x : Byte) : x.getLsbD 0 = decide (x.toNat % 2 = 1) := by
  rw [BitVec.getLsbD, Nat.testBit_eq_decide_div_mod_eq, pow_zero, Nat.div_one]

/-! ### DAA (R254) -/

/-- DAA adds the correction that its two tests name; its CY is set or left alone, its AC that of the addition. -/
theorem daa8_eq {x : Byte} {ac cy low high : Bool} (hlow : low = true ↔ 9 < x.toNat % 16 ∨ ac = true)
    (hhigh : high = true ↔ 9 < x.toNat / 16 ∨ cy = true ∨ (9 ≤ x.toNat / 16 ∧ 9 < x.toNat % 16)) :
    daa8 x ac cy =
      ⟨(add8 x (BitVec.ofNat 8 (6 * low.toNat + 96 * high.toNat)) false).res, cy || high,
        (add8 x (BitVec.ofNat 8 (6 * low.toNat + 96 * high.toNat)) false).ac⟩ := by
  have hlowTest : (decide (x.toNat % 16 > 9) || ac) = low := by
    rw [Bool.eq_iff_iff, hlow, Bool.or_eq_true, decide_eq_true_iff]
  have hhighTest : (decide (x.toNat / 16 > 9) || cy || (decide (x.toNat / 16 ≥ 9) && decide (x.toNat % 16 > 9))) = high := by
    rw [Bool.eq_iff_iff, hhigh]
    simp only [Bool.or_eq_true, Bool.and_eq_true, decide_eq_true_iff, or_assoc, gt_iff_lt, ge_iff_le]
  have hcorr : ((if low then 0x06 else 0) ||| (if high then 0x60 else 0) : Byte) =
      BitVec.ofNat 8 (6 * low.toNat + 96 * high.toNat) := by
    cases low <;> cases high <;> rfl
  simp only [daa8, hlowTest, hhighTest, hcorr]

/-- DAA in numbers: the result is the sum with the correction modulo 256, AC the carry out of bit 3. -/
theorem daa8_exact {x : Byte} {ac cy low high : Bool} {corr : Nat} (hlow : low = true ↔ 9 < x.toNat % 16 ∨ ac = true)
    (hhigh : high = true ↔ 9 < x.toNat / 16 ∨ cy = true ∨ (9 ≤ x.toNat / 16 ∧ 9 < x.toNat % 16))
    (hcorr : corr = 6 * low.toNat + 96 * high.toNat) :
    (daa8 x ac cy).res.toNat = (x.toNat + corr) % 256 ∧ (daa8 x ac cy).cy = (cy || high) ∧
    (daa8 x ac cy).ac = decide (16 ≤ x.toNat % 16 + corr % 16) := by
  have hbyte : (BitVec.ofNat 8 corr).toNat = corr := by
    have hl := low.toNat_le
    have hh := high.toNat_le
    rw [BitVec.toNat_ofNat]
    omega
  rw [daa8_eq hlow hhigh, ← hcorr]
  refine ⟨?res, rfl, ?ac⟩
  case res => rw [add8_res, BitVec.toNat_ofNat, hbyte, Bool.toNat_false, Nat.add_zero]
  case ac => rw [(add8_exact _ _ _).2, hbyte, Bool.toNat_false, Nat.add_zero]

/-! ### The statements -/

/-- Settles O53: the operands of O50, each form then putting the AND, the exclusive OR or the OR in A. -/
theorem logicalOperations : Obligations.LogicalOperations := by
  intro s
  refine ⟨fun src => ⟨?ana, ?xra, ?ora⟩, fun data => ⟨?ani, ?xri, ?ori⟩, ?memory⟩
  case ana => exact .of_and (hasForm_source rfl (by decide)) rfl (After.refl s)
  case xra => exact .of_xor (hasForm_source rfl (by decide)) rfl (After.refl s)
  case ora => exact .of_or (hasForm_source rfl (by decide)) rfl (After.refl s)
  case ani => exact .of_and ⟨rfl, rfl⟩ rfl (After.refl s)
  case xri => exact .of_xor ⟨rfl, rfl⟩ rfl (After.refl s)
  case ori => exact .of_or ⟨rfl, rfl⟩ rfl (After.refl s)
  case memory =>
    intro x v hq hx hv
    obtain ⟨rfl, hread⟩ := After.readM_operand hq hx hv
    exact ⟨.of_and ⟨rfl, rfl⟩ rfl hread, .of_xor ⟨rfl, rfl⟩ rfl hread, .of_or ⟨rfl, rfl⟩ rfl hread⟩

/-- Settles O54: the operands of O50, each form then writing the flags of the difference alone. -/
theorem compares : Obligations.Compares := by
  intro s
  refine ⟨fun src => ⟨hasForm_source rfl (by decide), _, rfl, (After.refl s).operand_compare _⟩,
    fun data => ⟨⟨rfl, rfl⟩, _, rfl, (After.refl s).operand_compare data⟩, ?memory⟩
  case memory =>
    intro x v hq hx hv
    obtain ⟨rfl, hread⟩ := After.readM_operand hq hx hv
    exact ⟨⟨rfl, rfl⟩, _, rfl, hread.operand_compare _⟩

/-- Settles O55: each rotate is `State.rotate`; the bit that comes in is bit 7, bit 0 or CY. -/
theorem rotates : Obligations.Rotates := by
  intro s
  rw [← getLsbD_seven, ← getLsbD_zero]
  refine ⟨⟨⟨rfl, rfl⟩, _, rfl, ?rlc, After.rotate s _ _⟩, ⟨⟨rfl, rfl⟩, _, rfl, ?rrc, After.rotate s _ _⟩,
    ⟨⟨rfl, rfl⟩, _, rfl, ?ral, After.rotate s _ _⟩, ⟨rfl, rfl⟩, _, rfl, ?rar, After.rotate s _ _⟩
  case rlc => exact (toNat_append_bit s.a _).trans (by rw [toNat_bit7])
  case rrc => exact (toNat_bit_append s.a _).trans (by rw [toNat_bit0])
  case ral => exact (toNat_append_bit s.a _).trans (by rw [BitVec.toNat_ofBool])
  case rar => exact (toNat_bit_append s.a _).trans (by rw [BitVec.toNat_ofBool])

/-- Settles O56: CMA writes A, STC and CMC write the flags, and DAA writes `daa8` of A with its flags. -/
theorem accumulatorSpecials : Obligations.AccumulatorSpecials := by
  intro s
  refine ⟨⟨⟨rfl, rfl⟩, _, rfl, ?complement, After.setReg s .a _⟩, ⟨⟨rfl, rfl⟩, _, rfl, After.setFlags s _⟩,
    ⟨⟨rfl, rfl⟩, _, rfl, After.setFlags s _⟩, fun low high corr hlow hhigh hcorr => ?daa⟩
  case complement => exact BitVec.toNat_not
  case daa =>
    obtain ⟨hres, hcy, hac⟩ := daa8_exact hlow hhigh hcorr
    have hframe := (After.refl s).operand_aluToA (daa8 s.a s.flags.ac s.flags.cy)
    rw [hcy, hac] at hframe
    exact ⟨⟨rfl, rfl⟩, _, rfl, hres, hframe⟩

/-! ### DAA after a sum of packed BCD bytes (R254) -/

/-- A column of a decimal addition: its carry out and its digit. -/
theorem exists_digit_of_carry {k : Nat} {carry : Bool} (hk : k ≤ 19) (hcarry : carry = true ↔ 9 < k) :
    ∃ d, d ≤ 9 ∧ k = 10 * carry.toNat + d := by
  cases carry
  case false => exact ⟨k, by simpa using hcarry, (Nat.zero_add k).symm⟩
  case true =>
    have hten : 9 < k := hcarry.mp rfl
    exact ⟨k - 10, by omega, (Nat.add_sub_cancel' hten).symm⟩

/-- Two columns of a decimal addition. Each decimal carry adds to its column the 6 by which the binary carry comes later, so the
corrected sum is 256 for the hundred and the packed digits. -/
theorem exists_digits_of_carries {hi lo : Nat} {low high : Bool} (hhi : hi ≤ 18) (hlo : lo ≤ 19)
    (hlow : low = true ↔ 9 < lo) (hhigh : high = true ↔ 99 < 10 * hi + lo) :
    ∃ ten one, ten ≤ 9 ∧ one ≤ 9 ∧
      16 * hi + lo + (6 * low.toNat + 96 * high.toNat) = 256 * high.toNat + (16 * ten + one) ∧
      10 * hi + lo = 100 * high.toNat + (10 * ten + one) := by
  have hl := low.toNat_le
  obtain ⟨one, hone, hlowColumn⟩ := exists_digit_of_carry hlo hlow
  obtain ⟨ten, hten, hhighColumn⟩ := exists_digit_of_carry (k := hi + low.toNat) (by omega) (hhigh.trans (by omega))
  exact ⟨ten, one, hten, hone, by omega, by omega⟩

section
variable {x y : Byte} {c : Bool} (hx : IsBcd x) (hy : IsBcd y)
include hx hy

/-- DAA's test of the low digit finds the decimal carry out of it. -/
theorem IsBcd.low_test :
    9 < x.toNat % 16 + y.toNat % 16 + c.toNat ↔ 9 < (add8 x y c).res.toNat % 16 ∨ (add8 x y c).ac = true := by
  obtain ⟨-, hxl⟩ := hx
  obtain ⟨-, hyl⟩ := hy
  obtain ⟨hsum, hac⟩ := add8_exact x y c
  have hc := c.toNat_le
  rw [hac, decide_eq_true_iff]
  omega

/-- DAA's test of the high digit finds the decimal carry out of the sum. -/
theorem IsBcd.high_test :
    99 < bcdValue x + bcdValue y + c.toNat ↔
      9 < (add8 x y c).res.toNat / 16 ∨ (add8 x y c).cy = true ∨
        (9 ≤ (add8 x y c).res.toNat / 16 ∧ 9 < (add8 x y c).res.toNat % 16) := by
  obtain ⟨hxh, hxl⟩ := hx
  obtain ⟨hyh, hyl⟩ := hy
  have hc := c.toNat_le
  rw [add8_cy, add8_res, BitVec.toNat_ofNat, decide_eq_true_iff, bcdValue, bcdValue]
  omega

/-- DAA after the addition leaves the two digits of the decimal sum, packed, and the hundred in CY. -/
theorem IsBcd.daa8_add8 :
    ∃ ten one, ten ≤ 9 ∧ one ≤ 9 ∧
      (daa8 (add8 x y c).res (add8 x y c).ac (add8 x y c).cy).res.toNat = 16 * ten + one ∧
      bcdValue x + bcdValue y + c.toNat =
        100 * (daa8 (add8 x y c).res (add8 x y c).ac (add8 x y c).cy).cy.toNat + (10 * ten + one) := by
  obtain ⟨low, hlow⟩ : ∃ b : Bool, b = true ↔ 9 < x.toNat % 16 + y.toNat % 16 + c.toNat := ⟨_, decide_eq_true_iff⟩
  obtain ⟨high, hhigh⟩ : ∃ b : Bool, b = true ↔ 99 < bcdValue x + bcdValue y + c.toNat := ⟨_, decide_eq_true_iff⟩
  have hhighTest := hhigh.trans (hx.high_test hy)
  obtain ⟨hres, hcy, -⟩ := daa8_exact (hlow.trans (hx.low_test hy)) hhighTest rfl
  have hcarry : ((add8 x y c).cy || high) = high := Bool.or_eq_right_iff_imp.mpr fun h => hhighTest.mpr (.inr (.inl h))
  rw [hcy, hcarry, hres, add8_res, BitVec.toNat_ofNat]
  obtain ⟨hxh, hxl⟩ := hx
  obtain ⟨hyh, hyl⟩ := hy
  have hc := c.toNat_le
  unfold bcdValue at hhigh ⊢
  obtain ⟨ten, one, hten, hone, hpacked, hvalue⟩ := exists_digits_of_carries (hi := x.toNat / 16 + y.toNat / 16)
    (by omega) (by omega) hlow (hhigh.trans (by omega))
  exact ⟨ten, one, hten, hone, by omega, by omega⟩

end

/-- Settles O30: both digits that DAA leaves are decimal, and with the hundred in CY they make the sum. -/
theorem daaAdjustsDecimalSums : Obligations.DaaAdjustsDecimalSums := by
  intro x y c hx hy r d
  obtain ⟨ten, one, hten, hone, (hres : d.res.toNat = 16 * ten + one),
    (hsum : _ = 100 * d.cy.toNat + (10 * ten + one))⟩ := hx.daa8_add8 hy (c := c)
  rw [hsum, IsBcd, bcdValue, hres]
  refine ⟨⟨?ten, ?one⟩, ?value⟩
  case ten | one | value => omega

end Sys2Proof.Machine
end

section
/-! The control, RIM and SIM statements (spec/47_control_rim_sim.md R260 to R265): what each of the five instructions that write a
flip-flop writes, and what it leaves alone. -/

namespace Sys2Proof.Machine

/-- The image RIM loads into A, bit by bit (R42, R264). -/
theorem exec_rim_bits {s t : State} (he : exec .rim s = .next t) :
    t.a.getLsbD 7 = s.pins.sid ∧ t.a.getLsbD 6 = s.r75 ∧ t.a.getLsbD 5 = s.pins.rst65 ∧ t.a.getLsbD 4 = s.pins.rst55 ∧
    t.a.getLsbD 3 = (if s.trapRIM = true then s.trapIE else s.ie) ∧
    t.a.getLsbD 2 = s.m75 ∧ t.a.getLsbD 1 = s.m65 ∧ t.a.getLsbD 0 = s.m55 := by
  cases he
  exact byteOfBits_bits ..

/-- SIM loads the masks under bit 3 of A (R265). -/
theorem exec_sim_masks {s t : State} (he : exec .sim s = .next t) :
    (s.a.getLsbD 3 = true → t.m75 = s.a.getLsbD 2 ∧ t.m65 = s.a.getLsbD 1 ∧ t.m55 = s.a.getLsbD 0) ∧
    (s.a.getLsbD 3 = false → t.m75 = s.m75 ∧ t.m65 = s.m65 ∧ t.m55 = s.m55) := by
  cases he
  refine ⟨fun h => ⟨if_pos h, if_pos h, if_pos h⟩, fun h => ?_⟩
  have hoff := Bool.eq_false_iff.mp h
  exact ⟨if_neg hoff, if_neg hoff, if_neg hoff⟩

/-- SIM clears the RST 7.5 latch under bit 4 of A (R265). -/
theorem exec_sim_r75 {s t : State} (he : exec .sim s = .next t) :
    (s.a.getLsbD 4 = true → t.r75 = false) ∧ (s.a.getLsbD 4 = false → t.r75 = s.r75) := by
  cases he
  exact ⟨fun h => if_pos h, fun h => if_neg (Bool.eq_false_iff.mp h)⟩

/-- SIM loads the serial output latch under bit 6 of A (R265). -/
theorem exec_sim_sod {s t : State} (he : exec .sim s = .next t) :
    (s.a.getLsbD 6 = true → t.sod = s.a.getLsbD 7) ∧ (s.a.getLsbD 6 = false → t.sod = s.sod) := by
  cases he
  exact ⟨fun h => if_pos h, fun h => if_neg (Bool.eq_false_iff.mp h)⟩

/-- Settles O58: each arm of `exec` is the state named. -/
theorem controlInstructions : Obligations.ControlInstructions := fun _ =>
  ⟨⟨rfl, rfl⟩, ⟨rfl, rfl⟩, ⟨rfl, rfl⟩, ⟨rfl, rfl⟩, rfl, rfl, rfl, rfl⟩

/-- Settles O59: the bits are those of the image, and RIM writes A and TRAP_RIM alone. -/
theorem readInterruptMask : Obligations.ReadInterruptMask := by
  intro s
  obtain ⟨t, he⟩ := exec_next .rim s
  obtain ⟨h7, h6, h5, h4, h3, h2, h1, h0⟩ := exec_rim_bits he
  refine ⟨⟨rfl, rfl⟩, t, he, h7, h6, h5, h4, h3, h2, h1, h0, ?frame⟩
  case frame =>
    cases he
    rfl

/-- Settles O60: the three actions, each by its own enable bit, and SIM writes the fields of these three alone. -/
theorem setInterruptMask : Obligations.SetInterruptMask := by
  intro s
  obtain ⟨t, he⟩ := exec_next .sim s
  obtain ⟨hload, hkeep⟩ := exec_sim_masks he
  obtain ⟨hclear, hlatch⟩ := exec_sim_r75 he
  obtain ⟨hout, hsod⟩ := exec_sim_sod he
  refine ⟨⟨rfl, rfl⟩, t, he, hload, hkeep, hclear, hlatch, hout, hsod, ?frame⟩
  case frame =>
    cases he
    rfl

end Sys2Proof.Machine
end

section
/-! The exception statements (spec/60_exceptions.md R271 to R291): which request is selected, what its acceptance writes, and who
else can write the flip-flops it reads. Inside an instruction or an acceptance the environment acts between the bus transfers; what
it cannot touch there is `exec_keeps` and `accept_keeps`. -/

namespace Sys2Proof.Machine

/-! ### The inputs before a step (R11, R279) -/

/-- With RESET IN left alone between two steps, only what an event can touch changes there. -/
theorem State.chip_boundaryEvents {es : List BoundaryEvent} (h : ∀ b, .resetIn b ∉ es) (s : State) :
    (s.boundaryEvents es).chip = s.chip := by
  induction es generalizing s with
  | nil => rfl
  | cons e es ih =>
    cases e with
    | bus e => exact (ih (fun b hb => h b (List.mem_cons_of_mem _ hb)) (s.event e)).trans (s.chip_event e)
    | resetIn b => exact absurd (List.mem_cons_self ..) (h b)

theorem State.takeInputs_nil {s : State} (h : s.env.inputs = []) : s.takeInputs = { s with bus := [] } := by
  simp only [State.takeInputs, h]

theorem State.takeInputs_cons {s : State} {es : List BoundaryEvent} {rest : List (List BoundaryEvent)}
    (h : s.env.inputs = es :: rest) :
    s.takeInputs = State.boundaryEvents { s with bus := [], env := { s.env with inputs := rest } } es := by
  simp only [State.takeInputs, h]

/-- Settles O8: the inhibit that EI or DI sets outlasts the inputs before the next step, and closes its boundary. -/
theorem instructionAfterEiRuns : Obligations.InstructionAfterEiRuns := by
  rintro s t _ i hi he hrun rfl hreset hr hh
  have hinhibit : t.inhibit = true := by
    obtain rfl | rfl := hi
    all_goals
      cases he
      rfl
  have hchip : t.takeInputs.chip = t.chip := by
    cases hin : t.env.inputs with
    | nil => rw [State.takeInputs_nil hin]; rfl
    | cons es rest => rw [State.takeInputs_cons hin]; exact State.chip_boundaryEvents (hreset es rest hin) _
  have hrun' := (State.chip_eq_halted hchip).trans hrun
  rw [State.boundary_closed _ hr hh (.inr ((State.chip_eq_inhibit hchip).trans hinhibit)), if_neg (by simp [hrun'])]

/-! ### Selection (R272, R280) -/

theorem State.valid_iff (s : State) (q : Request) : s.valid q = true ↔ RequestValid s q := by
  cases q <;> simp [State.valid, RequestValid, and_assoc]

theorem State.selectInterrupt_eq_none_iff (s : State) : s.selectInterrupt = none ↔ ∀ q, ¬ RequestValid s q := by
  simp only [← State.valid_iff]
  constructor
  · intro h q
    unfold State.selectInterrupt at h
    split_ifs at h
    cases q <;> assumption
  · intro h
    simp only [State.selectInterrupt, h, Bool.false_eq_true, if_false]

/-- The request selected is valid, and no request before it in the chain is. -/
theorem State.selectInterrupt_spec {s : State} {q : Request} (h : s.selectInterrupt = some q) :
    RequestValid s q ∧ ∀ q', priorityOf q' < priorityOf q → ¬ RequestValid s q' := by
  simp only [← State.valid_iff]
  unfold State.selectInterrupt at h
  split_ifs at h
  all_goals
    cases h
    refine ⟨by assumption, fun q' hlt => ?_⟩
    cases q' <;> simp_all [priorityOf]

theorem priorityOf_injective : Function.Injective priorityOf := by
  intro q q'
  cases q <;> cases q' <;> decide

/-- A valid request with none of higher priority is selected: there is a request selected, and priorities are distinct. -/
theorem State.selectInterrupt_eq_some_iff (s : State) (q : Request) :
    s.selectInterrupt = some q ↔ RequestValid s q ∧ ∀ q', priorityOf q' < priorityOf q → ¬ RequestValid s q' := by
  refine ⟨State.selectInterrupt_spec, fun ⟨hvalid, hfirst⟩ => ?_⟩
  cases hsel : s.selectInterrupt with
  | none => exact absurd hvalid (s.selectInterrupt_eq_none_iff.mp hsel q)
  | some p =>
    obtain ⟨hp, hpfirst⟩ := State.selectInterrupt_spec hsel
    obtain hlt | heq | hgt := Nat.lt_trichotomy (priorityOf p) (priorityOf q)
    · exact absurd hp (hfirst p hlt)
    · rw [priorityOf_injective heq]
    · exact absurd hvalid (hpfirst q hgt)

/-- The four maskable requests need IE (R277). -/
theorem RequestValid.ie {s : State} {q : Request} (h : RequestValid s q) (hq : q ≠ .trap) : s.ie = true := by
  cases q
  case trap => exact absurd rfl hq
  all_goals exact h.1

theorem State.selectInterrupt_of_ie_false {s : State} (h : s.ie = false) :
    s.selectInterrupt = none ∨ s.selectInterrupt = some .trap := by
  cases hsel : s.selectInterrupt with
  | none => exact .inl rfl
  | some q =>
    refine .inr (congrArg some (of_not_not fun hq => ?_))
    exact absurd ((State.selectInterrupt_spec hsel).1.ie hq) (by simp [h])

/-! ### What an acknowledge and an acceptance leave alone (R281, R282, R285) -/

@[simp] theorem State.acknowledge_ie (s : State) (q : Request) : (s.acknowledge q).ie = false := by cases q <;> rfl
@[simp] theorem State.acknowledge_halted (s : State) (q : Request) : (s.acknowledge q).halted = false := by cases q <;> rfl
@[simp] theorem State.acknowledge_sp (s : State) (q : Request) : (s.acknowledge q).sp = s.sp := by cases q <;> rfl
@[simp] theorem State.acknowledge_m55 (s : State) (q : Request) : (s.acknowledge q).m55 = s.m55 := by cases q <;> rfl
@[simp] theorem State.acknowledge_m65 (s : State) (q : Request) : (s.acknowledge q).m65 = s.m65 := by cases q <;> rfl
@[simp] theorem State.acknowledge_m75 (s : State) (q : Request) : (s.acknowledge q).m75 = s.m75 := by cases q <;> rfl
@[simp] theorem State.callTo_sp (s : State) (x : Word) : (s.callTo x).sp = s.sp - 2 := rfl

theorem State.acknowledge_r75 (s : State) {q : Request} (h : q ≠ .rst75) : (s.acknowledge q).r75 = s.r75 := by
  cases q
  case rst75 => exact absurd rfl h
  all_goals rfl

theorem State.acknowledge_trap (s : State) {q : Request} (h : q ≠ .trap) :
    (s.acknowledge q).trapFF = s.trapFF ∧ (s.acknowledge q).trapIE = s.trapIE ∧ (s.acknowledge q).trapRIM = s.trapRIM := by
  cases q
  case trap => exact absurd rfl h
  all_goals exact ⟨rfl, rfl, rfl⟩

section
variable {q : Request} {s t : State} (ha : s.accept q = .next t)
include ha

theorem accept_ie : t.ie = false := by
  obtain ⟨hie, -⟩ := accept_keeps ha
  rw [hie, State.acknowledge_ie]

theorem accept_halted : t.halted = false := by
  obtain ⟨-, -, -, -, -, -, -, -, -, hhalted, -⟩ := accept_keeps ha
  rw [hhalted, State.acknowledge_halted]

theorem accept_masks : t.m55 = s.m55 ∧ t.m65 = s.m65 ∧ t.m75 = s.m75 := by
  obtain ⟨-, h55, h65, h75, -⟩ := accept_keeps ha
  simp only [h55, h65, h75, State.acknowledge_m55, State.acknowledge_m65, State.acknowledge_m75, and_self]

theorem accept_savedEnable : t.trapIE = (s.acknowledge q).trapIE ∧ t.trapRIM = (s.acknowledge q).trapRIM := by
  obtain ⟨-, -, -, -, htrapIE, htrapRIM, -⟩ := accept_keeps ha
  exact ⟨htrapIE, htrapRIM⟩

/-- Every acceptance ends in a call, from a state that differs from the acknowledged one only in what bus cycles change. -/
theorem accept_eq_callTo : ∃ (u : State) (x : Word), u.chip = (s.acknowledge q).chip ∧ t = u.callTo x := by
  cases q
  case intr =>
    simp only [State.accept, State.acceptIntr] at ha
    split at ha
    · cases ha
      exact ⟨_, _, State.chip_intaRead .., rfl⟩
    · split at ha <;> cases ha
      exact ⟨_, _, by simp only [State.chip_intaRead], rfl⟩
  all_goals
    cases ha
    exact ⟨_, _, State.chip_idle .., rfl⟩

/-- The call pushes two bytes (R281, R282). -/
theorem accept_sp : t.sp = s.sp - 2 := by
  obtain ⟨u, x, hu, rfl⟩ := accept_eq_callTo ha
  rw [State.callTo_sp, State.chip_eq_sp hu, State.acknowledge_sp]

end

/-- Settles O12: the chain of ifs is the priority; an acceptance keeps pins and the other latches, and clears IE. -/
theorem interruptPriority : Obligations.InterruptPriority := by
  refine fun s => ⟨s.selectInterrupt_eq_some_iff, s.selectInterrupt_eq_none_iff, fun q t hquiet ha => ?_⟩
  obtain ⟨-, hr75, htrapFF, -, hpins⟩ := accept_quiet_keeps hquiet ha
  refine ⟨hpins, fun hq => hr75.trans (s.acknowledge_r75 hq), fun hq => htrapFF.trans (s.acknowledge_trap hq).1,
    fun q' hq' hvalid => ?_⟩
  exact absurd (hvalid.ie hq') (by simp [accept_ie ha])

/-! ### Entry (R281 to R284) -/

/-- The call of an entry, in a quiet state whose flip-flops the acknowledge wrote and whose bus shows the cycles before. -/
theorem Entered.of_callTo (u : State) (q : Request) (e : Env) (target : Word) (before : List BusCycle) (he : e.xfers = []) :
    Entered u (State.callTo { ({ u with hlda := false } : State).acknowledge q with env := e, bus := u.bus ++ before } target)
      q target before := by
  have hcall := After.callTo
    { ({ u with hlda := false } : State).acknowledge q with env := e, bus := u.bus ++ before } target he
  obtain ⟨hie, h55, h65, h75, hr75, htrapFF, htrapIE, htrapRIM, hinhibit, hstarting, hsod, -, hhalted, hmap, hana, hpins⟩ :=
    hcall.control
  cases q
  all_goals exact {
    pc := hcall.pc
    sp := hcall.sp
    mem := hcall.mem
    bus := hcall.bus
    ie := hie
    halted := hhalted
    regs := fun r => (hcall.regs r List.not_mem_nil).trans (by cases r <;> rfl)
    flags := hcall.flags
    masks := ⟨h55, h65, h75⟩
    trap := ⟨htrapFF, htrapIE, htrapRIM⟩
    r75 := hr75
    rest := ⟨hinhibit, hstarting, hsod, hpins, hmap, hana⟩ }

section
variable {s : State} {q : Request} (hr : s.takeInputs.pins.resetIn = false) (hh : s.takeInputs.pins.hold = false)
  (hs : s.takeInputs.starting = false) (hi : s.takeInputs.inhibit = false)
include hr hh hs hi

/-- A step whose boundary is open accepts the request selected. -/
theorem step_accepts (hq : s.takeInputs.selectInterrupt = some q) :
    step s = State.accept { s.takeInputs with hlda := false } q :=
  step_done s _ (State.boundary_accepts _ q hr hh hs hi hq)

/-- A step of a halted CPU whose boundary is open and finds no valid request changes nothing. -/
theorem step_halted (hhalt : s.takeInputs.halted = true) (hq : s.takeInputs.selectInterrupt = none) :
    step s = .next { s.takeInputs with hlda := false } :=
  step_done s _ (by rw [State.boundary_no_request _ hr hh hs hi hq, if_pos hhalt])

end

/-- Settles O13: the acknowledge, the idle cycle, and the call of the vector. -/
theorem restartEntry : Obligations.RestartEntry := by
  rintro s _ q v rfl hr hh hs hi hq hquiet hrow
  have hstep := step_accepts hr hh hs hi hq
  simp only [List.mem_cons, List.not_mem_nil, or_false, Prod.mk.injEq] at hrow
  obtain ⟨rfl, rfl⟩ | ⟨rfl, rfl⟩ | ⟨rfl, rfl⟩ | ⟨rfl, rfl⟩ := hrow
  all_goals exact ⟨_, hstep, Entered.of_callTo s.takeInputs _ s.takeInputs.env _ _ hquiet⟩

/-- Settles O14: the device's answers are the INTA cycles before the call. -/
theorem intrEntry : Obligations.IntrEntry := by
  rintro s _ rfl hr hh hs hi hq hquiet
  have hstep := step_accepts hr hh hs hi hq
  have hanswer : ∀ e : Env, e.xfers = [] → e.intaAnswer.2.xfers = [] := fun e he => e.intaAnswer_xfers.trans he
  refine ⟨fun n hn hbyte => ?rst, fun lo hi e1 e2 e3 h1 h2 h3 => ?call⟩
  case rst =>
    have haccept := State.acceptIntr_rst { s.takeInputs with hlda := false } n hquiet hn hbyte
    exact ⟨_, hstep.trans haccept, Entered.of_callTo s.takeInputs .intr _ _ _ (hanswer _ hquiet)⟩
  case call =>
    have haccept := State.acceptIntr_call { s.takeInputs with hlda := false } lo hi e1 e2 e3 hquiet h1 h2 h3
    have he1 : e1.xfers = [] := congrArg (fun r => r.2.xfers) h1 ▸ hanswer _ hquiet
    have he2 : e2.xfers = [] := congrArg (fun r => r.2.xfers) h2 ▸ hanswer _ he1
    have he3 : e3.xfers = [] := congrArg (fun r => r.2.xfers) h3 ▸ hanswer _ he2
    exact ⟨_, hstep.trans haccept, Entered.of_callTo s.takeInputs .intr e3 _ _ he3⟩

/-- Settles O15: the step is the acceptance, and that refuses the byte. -/
theorem otherIntaByteRefused : Obligations.OtherIntaByteRefused := by
  rintro s _ rfl hr hh hs hi hq hquiet hrst hcall
  exact (step_accepts hr hh hs hi hq).trans
    (State.acceptIntr_other { s.takeInputs with hlda := false } hquiet hrst hcall)

/-- Settles O18: an acceptance leaves the halt state and pushes two bytes, and with IE 0 only TRAP could be selected. -/
theorem haltEndsOnlyByInterrupt : Obligations.HaltEndsOnlyByInterrupt := by
  rintro s _ rfl hhalt hs hi hr hh
  refine ⟨step_halted hr hh hs hi hhalt, fun q t hq hstep => ?accepts, fun hie htrap => ?masked⟩
  case accepts =>
    have ha := (step_accepts hr hh hs hi hq).symm.trans hstep
    have hsp := accept_sp ha
    exact ⟨accept_halted ha, hsp⟩
  case masked =>
    exact step_halted hr hh hs hi hhalt ((State.selectInterrupt_of_ie_false hie).resolve_right htrap)

/-! ### Who writes the interrupt flip-flops (R273, R274, R276, R277, R289) -/

/-- What each of the five instructions that write a flip-flop leaves alone of those the interrupts use: EI alone sets IE, SIM alone
writes the masks and can clear the RST 7.5 latch, RIM alone writes TRAP_RIM, and none writes the rest. -/
theorem exec_writer_keeps {i : Instr} {s t : State} (hi : writesFlipFlop i = true) (he : exec i s = .next t) :
    t.trapFF = s.trapFF ∧ t.trapIE = s.trapIE ∧ (i ≠ .rim → t.trapRIM = s.trapRIM) ∧
    (i ≠ .ei → t.ie = true → s.ie = true) ∧ (i ≠ .sim → t.m55 = s.m55 ∧ t.m65 = s.m65 ∧ t.m75 = s.m75) ∧
    (t.r75 = true → s.r75 = true) ∧ ((i = .sim → s.a.getLsbD 4 = false) → t.r75 = s.r75) := by
  cases i
  case ei | di | hlt | rim | sim =>
    cases he
    simp +contextual [State.idle]
  all_goals cases hi

section
variable {i : Instr} {s t : State} (he : exec i s = .next t)
include he

/-- No instruction but EI turns IE on. -/
theorem exec_ie (hi : i ≠ .ei) (ht : t.ie = true) : s.ie = true := by
  cases hw : writesFlipFlop i with
  | false =>
    obtain ⟨hie, -⟩ := exec_keeps hw he
    exact hie.symm.trans ht
  | true =>
    obtain ⟨-, -, -, hie, -⟩ := exec_writer_keeps hw he
    exact hie hi ht

/-- No instruction but SIM writes a mask. -/
theorem exec_masks (hi : i ≠ .sim) : t.m55 = s.m55 ∧ t.m65 = s.m65 ∧ t.m75 = s.m75 := by
  cases hw : writesFlipFlop i with
  | false =>
    obtain ⟨-, h55, h65, h75, -⟩ := exec_keeps hw he
    exact ⟨h55, h65, h75⟩
  | true =>
    obtain ⟨-, -, -, -, hmasks, -⟩ := exec_writer_keeps hw he
    exact hmasks hi

/-- No instruction but RIM writes the pair that TRAP saved. -/
theorem exec_savedEnable (hi : i ≠ .rim) : t.trapIE = s.trapIE ∧ t.trapRIM = s.trapRIM := by
  cases hw : writesFlipFlop i with
  | false =>
    obtain ⟨-, -, -, -, htrapIE, htrapRIM, -⟩ := exec_keeps hw he
    exact ⟨htrapIE, htrapRIM⟩
  | true =>
    obtain ⟨-, htrapIE, htrapRIM, -⟩ := exec_writer_keeps hw he
    exact ⟨htrapIE, htrapRIM hi⟩

/-- No instruction sets the RST 7.5 latch, where no edge comes between its transfers. -/
theorem exec_quiet_r75 (hq : s.Quiet) (ht : t.r75 = true) : s.r75 = true := by
  cases hw : writesFlipFlop i with
  | false =>
    obtain ⟨-, hr75, -⟩ := exec_quiet_keeps hq hw he
    exact hr75.symm.trans ht
  | true =>
    obtain ⟨-, -, -, -, -, hset, -⟩ := exec_writer_keeps hw he
    exact hset ht

/-- No instruction but SIM with bit 4 of A clears the RST 7.5 latch. -/
theorem exec_r75_set (hi : i = .sim → s.a.getLsbD 4 = false) (hs : s.r75 = true) : t.r75 = true := by
  cases hw : writesFlipFlop i with
  | false => exact stable_r75.stable.exec hs hw he
  | true =>
    obtain ⟨-, -, -, -, -, -, hkeep⟩ := exec_writer_keeps hw he
    exact (hkeep hi).trans hs

/-- No instruction clears the TRAP latch. -/
theorem exec_trapFF_set (hs : s.trapFF = true) : t.trapFF = true := by
  cases hw : writesFlipFlop i with
  | false => exact stable_trapFF.stable.exec hs hw he
  | true =>
    obtain ⟨htrapFF, -⟩ := exec_writer_keeps hw he
    exact htrapFF.trans hs

end

/-- Settles O16: the gate is `selectInterrupt_of_ie_false`, the writers are `exec_ie` and `accept_ie`. -/
theorem interruptEnableRules : Obligations.InterruptEnableRules := by
  refine ⟨fun s => State.selectInterrupt_of_ie_false, fun i s t hi he => exec_ie he hi, fun s t he => ?ei, fun s t he => ?di,
    fun s t q => accept_ie, fun _ => rfl⟩
  case ei | di =>
    cases he
    rfl

/-- A set mask keeps its request from being selected, since a selected request is valid. -/
theorem State.selectInterrupt_masked (s : State) :
    (s.m75 = true → s.selectInterrupt ≠ some .rst75) ∧ (s.m65 = true → s.selectInterrupt ≠ some .rst65) ∧
    (s.m55 = true → s.selectInterrupt ≠ some .rst55) := by
  refine ⟨fun h hq => ?_, fun h hq => ?_, fun h hq => ?_⟩
  all_goals
    obtain ⟨-, hmask, -⟩ := (State.selectInterrupt_spec hq).1
    exact Bool.false_ne_true (hmask.symm.trans h)

/-- Settles O17: the writers of the masks are `exec_masks`, `accept_masks`, an event and SIM; the readers are the requests' validity
and RIM. -/
theorem maskRules : Obligations.MaskRules := by
  refine ⟨fun i s t hi he => exec_masks he hi, fun s t q => accept_masks, fun s e hreset => ?event, fun _ => ⟨rfl, rfl, rfl⟩,
    fun s t => exec_sim_masks, State.selectInterrupt_masked, fun s x y z q hq => ?maskless, fun s t he => ?rim⟩
  case event =>
    match e, hreset with
    | .bus e, _ =>
      have hchip := s.chip_event e
      exact ⟨State.chip_eq_m55 hchip, State.chip_eq_m65 hchip, State.chip_eq_m75 hchip⟩
    | .resetIn false, _ => exact ⟨rfl, rfl, rfl⟩
  case maskless =>
    obtain rfl | rfl := hq
    all_goals rfl
  case rim =>
    obtain ⟨-, -, -, -, -, h75, h65, h55⟩ := exec_rim_bits he
    exact ⟨h75, h65, h55⟩

/-- Without a rising edge of RST 7.5 no pin change touches its latch. -/
theorem State.setPin_r75_of_no_edge {s : State} {p : Pin} {b : Bool} (h : p ≠ .rst75 ∨ b = false ∨ s.pins.rst75 = true) :
    (s.setPin p b).r75 = s.r75 := by
  cases p
  case rst75 =>
    obtain h | rfl | h := h
    · exact absurd rfl h
    · exact Bool.or_false _
    · simp [State.setPin, h]
  all_goals rfl

/-- Settles O19: an edge sets the latch; the events between transfers keep it set (`stable_r75`); what clears it is its own
acknowledge, SIM and RESET IN. -/
theorem rst75LatchRules : Obligations.Rst75LatchRules := by
  refine ⟨fun s hlow hreset => ?edge, stable_r75.setPin, fun s p b => State.setPin_r75_of_no_edge,
    fun i s t hq he => exec_quiet_r75 he hq, fun s t q hq ha ht => ?acceptSets, fun i s t he hs hi => exec_r75_set he hi hs,
    fun s t he => (exec_sim_r75 he).1, fun s t q hq ha hs => ?acceptKeeps, fun s t hq ha => ?acceptClears,
    fun s t he => ?rim, fun _ => rfl⟩
  case edge => simp [State.setPin, hlow, hreset]
  case acceptSets =>
    obtain ⟨-, hr75, -⟩ := accept_quiet_keeps hq ha
    have hack : (s.acknowledge q).r75 = true := hr75.symm.trans ht
    by_cases hq75 : q = .rst75
    · subst hq75
      exact absurd hack Bool.false_ne_true
    · exact (s.acknowledge_r75 hq75).symm.trans hack
  case acceptKeeps => exact stable_r75.stable.accept ((s.acknowledge_r75 hq).trans hs) ha
  case acceptClears =>
    obtain ⟨-, hr75, -⟩ := accept_quiet_keeps hq ha
    exact hr75
  case rim =>
    obtain ⟨-, h6, -⟩ := exec_rim_bits he
    exact h6

/-- Settles O20: an edge sets the latch; the request needs latch and level; what clears the latch is its own acknowledge and
RESET IN. -/
theorem trapLatchRules : Obligations.TrapLatchRules := by
  refine ⟨fun s hlow hreset => ?edge, fun s hs => ?level, fun i s t => exec_trapFF_set, fun s t q hq ha hs => ?acceptKeeps,
    fun s t hq ha => ?acceptClears, fun s hs hhigh => ?staysHigh, fun _ => rfl⟩
  case edge => simp [State.setPin, hlow, hreset]
  case level => simp [State.setPin, State.valid, hs]
  case acceptKeeps => exact stable_trapFF.stable.accept ((s.acknowledge_trap hq).1.trans hs) ha
  case acceptClears =>
    obtain ⟨-, -, htrapFF, -, hpins⟩ := accept_quiet_keeps hq ha
    exact ⟨htrapFF, congrArg Pins.trap hpins⟩
  case staysHigh => simp [State.setPin, State.valid, hs, hhigh]

/-- Settles O21: bit 3 of RIM's image is the saved enable once, then IE; the pair's other writers are none but TRAP. -/
theorem firstRimAfterTrap : Obligations.FirstRimAfterTrap := by
  refine ⟨fun s hs => ?rim, fun i s t hi he => exec_savedEnable he hi, fun s t q hq ha => ?accept,
    fun s t => accept_savedEnable⟩
  case rim =>
    obtain ⟨t, ht⟩ := exec_next .rim s
    obtain ⟨u, hu⟩ := exec_next .rim t
    obtain ⟨-, -, -, -, hfirst, -⟩ := exec_rim_bits ht
    obtain ⟨-, -, -, -, hsecond, -⟩ := exec_rim_bits hu
    have hspent : t.trapRIM = false := by
      cases ht
      rfl
    rw [if_pos hs] at hfirst
    rw [if_neg (by simp [hspent])] at hsecond
    exact ⟨t, ht, hfirst, hspent, u, hu, hsecond⟩
  case accept =>
    obtain ⟨htrapIE, htrapRIM⟩ := accept_savedEnable ha
    obtain ⟨-, hackIE, hackRIM⟩ := s.acknowledge_trap hq
    exact ⟨htrapIE.trans hackIE, htrapRIM.trans hackRIM⟩

end Sys2Proof.Machine
end

section
/-! The reset and timing statements (spec/70_reset_and_hazards.md R320 to R324, R330, R331): what RESET IN leaves, what follows its
release, and the T states of every instruction, which are those of its fetch and those of its own transfers. -/

namespace Sys2Proof.Machine

/-! ### Reset (R320 to R324) -/

/-- Settles O23: RESET IN writes each field named, and keeps memory and the platform. -/
theorem resetInEvent : Obligations.ResetInEvent := by
  rintro s _ rfl
  obtain ⟨hmem, hmap, hana, -⟩ := s.assertReset_keeps
  exact ⟨rfl, rfl, rfl, rfl, rfl, rfl, rfl, rfl, rfl, rfl, rfl, rfl, rfl, rfl,
    fun x => congrArg (·.get x.toNat) hmem, hmap, hana⟩

/-- What the inputs leave of a CPU in reset when they release RESET IN and then act on the bus alone. -/
theorem State.chip_takeInputs_release {s : State} {es : List Event} {rest : List (List BoundaryEvent)}
    (h : s.env.inputs = (.resetIn false :: es.map .bus) :: rest) : s.takeInputs.chip = s.releaseReset.chip := by
  rw [State.takeInputs_cons h]
  exact State.chip_boundaryEvents (es := es.map .bus) (by simp) _

/-- Settles O24: in reset the boundary ends the step; RESET IN frees the bus; and what stands in reset (`State.Inv`) stands after
the release until the fetch. -/
theorem heldInResetThenFetchesAtZero : Obligations.HeldInResetThenFetchesAtZero := by
  refine ⟨fun s hinv hr hin => ?held, fun s x v hr y => ?load, fun s _ es rest hinv hr hin hu hh => ?release⟩
  case held =>
    obtain ⟨-, -, -, hstart, hreset⟩ := hinv
    obtain ⟨hpc, -⟩ := hstart (hreset hr).1
    have hinputs := State.takeInputs_nil hin
    exact ⟨step_done s _ (State.boundary_reset _ (by rw [hinputs]; exact hr)), by rw [hinputs]; exact hpc⟩
  case load =>
    have hfree : s.busFree = true := by simp [State.busFree, hr]
    rw [State.event, if_pos hfree, State.byteAt_store]
  case release =>
    subst hu
    obtain ⟨-, -, -, hstart, hreset⟩ := hinv
    have hstarting := (hreset hr).1
    obtain ⟨hpc, hie, -, -, -, -, -, -, hrun⟩ := hstart hstarting
    have hchip := State.chip_takeInputs_release hin
    have hrun' : s.takeInputs.halted = false := (State.chip_eq_halted hchip).trans hrun
    have hboundary := State.boundary_closed _ (State.chip_eq_resetIn hchip) hh
      (.inl ((State.chip_eq_starting hchip).trans hstarting))
    rw [if_neg (by simp [hrun'])] at hboundary
    exact ⟨hboundary, (State.chip_eq_pc hchip).trans hpc, (State.chip_eq_ie hchip).trans hie⟩

/-! ### The record of the bus before a fetch -/

theorem State.event_bus (s : State) (e : Event) : (s.event e).bus = s.bus := by
  cases e with
  | pin p b => cases p <;> rfl
  | dma x v =>
    simp only [State.event]
    split
    · exact s.store_bus x v
    · rfl

theorem State.boundaryEvent_bus (s : State) : ∀ e : BoundaryEvent, (s.boundaryEvent e).bus = s.bus
  | .bus e => s.event_bus e
  | .resetIn true => rfl
  | .resetIn false => rfl

theorem State.boundaryEvents_bus (s : State) (es : List BoundaryEvent) : (s.boundaryEvents es).bus = s.bus := by
  induction es generalizing s with
  | nil => rfl
  | cons e es ih => exact (ih (s.boundaryEvent e)).trans (s.boundaryEvent_bus e)

/-- The record of the last step is put away before the next. -/
theorem State.takeInputs_bus (s : State) : s.takeInputs.bus = [] := by
  cases h : s.env.inputs with
  | nil => rw [State.takeInputs_nil h]
  | cons es rest => rw [State.takeInputs_cons h, State.boundaryEvents_bus]

/-- A boundary that goes on to a fetch records no machine cycle. -/
theorem State.boundary_run_bus {s t : State} (h : s.boundary = .run t) : t.bus = s.bus := by
  unfold State.boundary at h
  simp only at h
  split_ifs at h
  · cases h; rfl
  · split at h <;> cases h
  · split at h <;> cases h
    rfl

/-! ### T states (R330, R331) -/

theorem busTime_append (b c : List BusCycle) : busTime (b ++ c) = busTime b + busTime c := by
  induction b with
  | nil => exact (Nat.zero_add _).symm
  | cons x b ih => simp only [List.cons_append, busTime, ih, Nat.add_assoc]

/-- The T states a frame adds are those of its machine cycles. -/
theorem After.busTime {s t : State} {c : List Reg} {sp pc : Word} {f : Flags} {w : List (Word × Byte)} {b : List BusCycle}
    (h : After s t c sp pc f w b) : Machine.busTime t.bus = Machine.busTime s.bus + Machine.busTime b := by
  rw [h.bus, busTime_append]

/-- The T states of an instruction's cycles after its fetch, by whether its condition holds where it has one: three for each byte it
moves and each idle cycle of DAD, one for the idle of HLT (R64, R263, R330). -/
def timeAfterFetch (taken : Bool) : Instr → Nat
  | .hlt => 1
  | .movMR _ | .movRM _ | .mviM _ | .staxB | .staxD | .ldaxB | .ldaxD | .sta _ | .lda _ | .inp _ | .out _ | .addM | .adcM | .subM
  | .sbbM | .anaM | .xraM | .oraM | .cmpM => 3
  | .shld _ | .lhld _ | .pushB | .pushD | .pushH | .pushPSW | .popB | .popD | .popH | .popPSW | .call _ | .ret | .rst _ | .inrM
  | .dcrM | .dadB | .dadD | .dadH | .dadSP => 6
  | .xthl => 12
  | .cnz _ | .cz _ | .cnc _ | .cc _ | .cpo _ | .cpe _ | .cp _ | .cm _ => if taken then 6 else 0
  | .rnz | .rz | .rnc | .rc | .rpo | .rpe | .rp | .rm => if taken then 6 else 0
  | _ => 0

section
variable {s : State} (hq : s.Quiet)
include hq

/-- A conditional call takes the time of a call, or none. -/
theorem State.callIf_time (cc : Cond) (x : Word) :
    busTime (s.callIf cc x).bus = busTime s.bus + if condHolds s.flags cc then 6 else 0 := by
  have hframe := After.callIf hq cc x
  split at hframe
  · next h => exact hframe.busTime.trans (by rw [if_pos h]; rfl)
  · next h => exact hframe.busTime.trans (by rw [if_neg h]; rfl)

/-- A conditional return takes the time of a return, or none. -/
theorem State.returnIf_time (cc : Cond) :
    busTime (s.returnIf cc).bus = busTime s.bus + if condHolds s.flags cc then 6 else 0 := by
  have hframe := After.returnIf_top hq rfl cc
  split at hframe
  · next h => exact hframe.busTime.trans (by rw [if_pos h]; rfl)
  · next h => exact hframe.busTime.trans (by rw [if_neg h]; rfl)

/-- XTHL takes the time of two reads and two writes. -/
theorem exec_xthl_time {t : State} (he : exec .xthl s = .next t) : busTime t.bus = busTime s.bus + 12 := by
  cases he
  have hquiet : (s.memRead16 s.sp).2.Quiet := (hq.memRead s.sp).memRead (s.sp + 1)
  have hreads := (After.memRead16 s s.sp hq).trans_keep (After.memWrite _ (s.sp + 1) s.h hquiet)
  exact (hreads.trans_keep (After.memWrite _ s.sp s.l (hquiet.memWrite (s.sp + 1) s.h))).busTime

/-- The T states of an instruction after its fetch, each by the frame of what it does. -/
theorem exec_time {i : Instr} {t : State} (he : exec i s = .next t) :
    busTime t.bus = busTime s.bus + timeAfterFetch (takenBy i s.flags) i := by
  cases i
  case xthl => exact exec_xthl_time hq he
  all_goals cases he
  case movMR | mviM | staxB | staxD | sta => exact (After.memWrite s _ _ hq).busTime
  case movRM | ldaxB | ldaxD | lda => exact (After.load hq _ _).busTime
  case addM | adcM | subM | sbbM | anaM | xraM | oraM | cmpM => exact (After.memRead s _ hq).busTime
  case inrM | dcrM => exact (After.stepM hq _).busTime
  case inp => exact (After.ioLoad hq _).busTime
  case out => exact (After.ioWrite s _ _ hq).busTime
  case shld => exact (After.memWrite16 s _ _ hq).busTime
  case lhld => exact (After.loadHl hq _).busTime
  case pushB | pushD | pushH => exact (After.push16 s _ hq).busTime
  case pushPSW => exact (After.push16 s.draw.2 _ hq.draw).busTime
  case popB | popD | popH | popPSW => exact (After.pop16 s hq).busTime
  case call | rst => exact (After.callTo s _ hq).busTime
  case ret => exact (After.returnFrom s hq).busTime
  case dadB | dadD | dadH | dadSP => exact (After.dad s _).busTime
  case hlt => exact (After.idle s .idleHalt 1).busTime
  case jnz | jz | jnc | jc | jpo | jpe | jp | jm => exact (After.jumpIf s _ _).busTime
  case cnz | cz | cnc | cc | cpo | cpe | cp | cm => exact State.callIf_time hq _ _
  case rnz | rz | rnc | rc | rpo | rpe | rp | rm => exact State.returnIf_time hq _
  case movRR | mviR => exact (After.setReg s _ _).busTime
  case inrR | dcrR => exact (After.stepReg s _ _).busTime
  all_goals rfl

end

/-- The T states of a quiet fetch: the opcode's, and three for each further byte that is read. -/
theorem State.fetchCycles_time (s : State) (n : Nat) :
    busTime (s.fetchCycles n) = fetchTStates (s.byteAt s.pc) + ((if 2 ≤ n then 3 else 0) +
      if n = 3 ∧ skipsThird (s.byteAt s.pc) s.flags = false then 3 else 0) := by
  simp only [State.fetchCycles, busTime, busTime_append, BusCycle.time]
  congr 2
  · split <;> rfl
  · split <;> rfl

/-- The count of R330 for a conditional jump: byte 3 is read if the condition holds. -/
theorem jumpTime_eq (taken : Bool) : 4 + (3 + if 3 = 3 ∧ (!taken) = false then 3 else 0) + 0 = if taken then 10 else 7 := by
  cases taken <;> rfl

/-- The count of R330 for a conditional call: byte 3 is read, and PC pushed, if the condition holds. -/
theorem callTime_eq (taken : Bool) :
    6 + (3 + if 3 = 3 ∧ (!taken) = false then 3 else 0) + (if taken then 6 else 0) = if taken then 18 else 9 := by
  cases taken <;> rfl

/-- The count of R330 for a conditional return: two bytes are read if the condition holds. -/
theorem returnTime_eq (taken skips : Bool) :
    6 + ((if 2 ≤ 1 then 3 else 0) + if 1 = 3 ∧ skips = false then 3 else 0) + (if taken then 6 else 0) =
      if taken then 12 else 6 := by
  cases taken <;> rfl

/-- R330's count is the fetch, by the first byte of the encoding, and the cycles after it. -/
theorem fetchTime_add_timeAfterFetch {i : Instr} (hwf : i.WellFormed) {op : Byte} (hop : (encode i).head? = some op) (f : Flags) :
    fetchTStates op + ((if 2 ≤ i.length then 3 else 0) + if i.length = 3 ∧ skipsThird op f = false then 3 else 0) +
      timeAfterFetch (takenBy i f) i = tStatesOf (takenBy i f) i := by
  cases i
  case rst n =>
    have hn : n < 8 := of_decide_eq_true hwf
    interval_cases n
    all_goals
      cases hop
      rfl
  case movRR dst src =>
    cases dst
    all_goals
      cases src
      all_goals
        cases hop
        rfl
  case movMR r | movRM r | mviR r _ | inrR r | dcrR r | addR r | adcR r | subR r | sbbR r | anaR r | xraR r | oraR r | cmpR r =>
    cases r
    all_goals
      cases hop
      rfl
  all_goals cases hop
  case jnz | jz | jnc | jc | jpo | jpe | jp | jm => exact jumpTime_eq _
  case cnz | cz | cnc | cc | cpo | cpe | cp | cm => exact callTime_eq _
  case rnz | rz | rnc | rc | rpo | rpe | rp | rm => exact returnTime_eq _ _
  all_goals rfl

/-- The first byte at PC is that of the encoding of the instruction that stands there. -/
theorem State.AtInstr.encode_head {t : State} {i : Instr} (h : t.AtInstr i) :
    i.WellFormed ∧ (encode i).head? = some (t.byteAt t.pc) := by
  obtain ⟨-, rest, hd⟩ := h
  obtain ⟨hwf, hbytes⟩ := decodedBytesReencode _ i rest hd
  have hne : encode i ≠ [] := List.ne_nil_of_length_pos (Instr.length_pos i)
  exact ⟨hwf, (List.head?_append_of_ne_nil _ hne).symm.trans (congrArg List.head? hbytes.symm)⟩

/-- Settles O26: the record starts empty, the fetch adds its cycles, the instruction its own, and the two make R330's count. -/
theorem tStatesPerInstruction : Obligations.TStatesPerInstruction := by
  intro s t v i hb hq hat hstep
  have hbus : t.bus = [] := (State.boundary_run_bus hb).trans s.takeInputs_bus
  obtain ⟨hwf, hop⟩ := hat.encode_head
  have hexec : exec i (t.fetched i.length) = .next v := (stepRunsDecodedInstruction s t i hb hq hat).symm.trans hstep
  calc busTime v.bus
      = busTime (t.bus ++ t.fetchCycles i.length) + timeAfterFetch (takenBy i t.flags) i :=
        exec_time (s := t.fetched i.length) hq hexec
    _ = busTime (t.fetchCycles i.length) + timeAfterFetch (takenBy i t.flags) i := by rw [hbus, List.nil_append]
    _ = tStatesOf (takenBy i t.flags) i := by rw [State.fetchCycles_time, fetchTime_add_timeAfterFetch hwf hop]

end Sys2Proof.Machine
end
